-- ==== Sys2Proof/Word.lean ====
section
/-! DEFINITION. The word types of the block: the widths of spec/10_state.md R21 and spec/20_memory.md R62. -/

namespace Sys2Proof

/-- u8: a configuration value, the cooldown, the fan count, a stuck counter, a fan index (R21). -/
abbrev Byte := BitVec 8

/-- u10: the raw sample (R21, R68). -/
abbrev Sample := BitVec 10

/-- s16: a temperature in degrees Celsius; `BitVec.toInt` is its value (R21, R171). -/
abbrev Temp := BitVec 16

/-- u16: a cadence counter (R42). -/
abbrev Counter := BitVec 16

/-- All tachometer lines at one moment: bit f is line f (R69).
FAN_AMOUNT is at most 255, and only the low FAN_AMOUNT bits are ever read. -/
abbrev TachVec := BitVec 255

/-- A 16-bit event word, or the operand word beside it (R103, log entry 5). -/
abbrev EventWord := BitVec 16

end Sys2Proof
end

