-- ==== Sys2Proof/Machine/Codes.lean ====
section
/-! DEFINITION. The enumerations of the block and the codes the spec prints them with (spec/30_encoding.md R99, R100). -/

namespace Sys2Proof.Machine

/-- Where a decode call stands (R21, R150). -/
inductive DPhase where
  | idle | search | settle | payload
deriving DecidableEq, Repr

/-- The next phase of the control tick (R21, R44). -/
inductive Phase where
  | idle | sense | spike | state | ramp | tach | fault
deriving DecidableEq, Repr

/-- RunState (R34). -/
inductive RunState where
  | off | on | spike
deriving DecidableEq, Repr

/-- The prioritized fault code (R38): NONE, SENSOR, FAN(index). -/
inductive FaultCode where
  | none | sensor | fan (index : Byte)
deriving DecidableEq, Repr

/-- The diagnostic cause of a NoMessage (R99, R153); no rule reads it. -/
inductive Cause where
  | searchRunTooLong | syncFailure | payloadRunTooLong
deriving DecidableEq, Repr, Inhabited

/-- What `LINK.RUN` returns (R143). -/
inductive RunLength where
  | length (n : Nat) | tooLong
deriving DecidableEq, Repr

/-- What `LINK.SYNC` returns (R146). -/
inductive SyncResult where
  | synced | noMessage (c : Cause)
deriving DecidableEq, Repr

/-- What `LINK.PAYLOAD` and `LINK.DECODE` return (R140, R148). -/
inductive DecodeResult where
  | value (v : Sample) | noMessage (c : Cause)
deriving DecidableEq, Repr, Inhabited

/-- u2 code of `dphase` (R99). -/
def DPhase.code : DPhase → BitVec 2
  | .idle => 0 | .search => 1 | .settle => 2 | .payload => 3

/-- u3 code of `phase` (R99). -/
def Phase.code : Phase → BitVec 3
  | .idle => 0 | .sense => 1 | .spike => 2 | .state => 3 | .ramp => 4 | .tach => 5 | .fault => 6

/-- u2 code of `runState` (R34, R99). -/
def RunState.code : RunState → BitVec 2
  | .off => 0 | .on => 1 | .spike => 2

/-- u2 code of `fault.kind` (R38, R99). -/
def FaultCode.kind : FaultCode → BitVec 2
  | .none => 0 | .sensor => 1 | .fan _ => 2

/-- `fault.index`: the fan index when the kind is FAN, 0 otherwise (R38). -/
def FaultCode.index : FaultCode → Byte
  | .fan i => i | _ => 0

/-- `fault` as one word: kind in bits 9:8, index in bits 7:0 (R100). -/
def FaultCode.pack (f : FaultCode) : BitVec 10 := f.kind ++ f.index

/-- Code of a NoMessage cause (R99). -/
def Cause.code : Cause → Nat
  | .searchRunTooLong => 1 | .syncFailure => 2 | .payloadRunTooLong => 3

/-- `raw` as one word: valid in bit 10, value in bits 9:0 (R100). -/
def packRaw : Option Sample → BitVec 11
  | some v => 1#1 ++ v | none => 0

end Sys2Proof.Machine
end

