-- ==== Sys2Proof/Config.lean ====
section
/-! DEFINITION. What an instance of the block fixes: the parameters of spec/00_scope.md R7, and the free values. -/

namespace Sys2Proof

/-- Five u8 values in the order of spec/10_state.md R39: 0 off, 1 on, 2 width, 3 height, 4 reset. -/
structure Thresholds where
  off : Byte
  on : Byte
  width : Byte
  height : Byte
  reset : Byte
deriving DecidableEq, Repr

/-- CONVERT, the raw-to-Celsius function, as plain data (spec/42_temperature_filter.md R170, log entry 2):
the default expression, or the table of its value at 0 .. 1023. -/
inductive Convert where
  | affine
  | table (entries : List Temp)
deriving DecidableEq, Repr

/-- TICKS_PER_SECOND: timer ticks in the 1 Hz cadence (R7). No rule reads it; STUCK_PERIOD's given value is this
number (spec/45_tachometer_monitor.md R230). -/
def ticksPerSecond : Nat := 20

/-- The literals that R7 takes from the source with a value: parameters with that value as default
(spec/93_implementation_defined.md U1 to U6, U11; log entry 18). -/
structure Literals where
  /-- SYNC_LEN: length of run 0, and the decoder's limit while searching (R122, R143). -/
  syncLen : Nat
  /-- BIT1_LEN: length of a run that carries bit 1, and the decoder's limit in the payload (R122, R143). -/
  bit1Len : Nat
  /-- BIT0_LEN (R122). -/
  bit0Len : Nat
  /-- PAYLOAD_BITS (R148). -/
  payloadBits : Nat
  /-- MAX_SEARCH_RUNS: non-marker runs tolerated while searching (R147). -/
  maxSearchRuns : Nat
  /-- RAW_REF (R170). -/
  rawRef : Nat
  /-- TEMP_REF (R170). -/
  tempRef : Int
  /-- RATIO_NUM (R170). -/
  ratioNum : Nat
  /-- RATIO_DEN (R170). -/
  ratioDen : Nat
  /-- MARGIN: dead-band half width of the filter (R172). -/
  margin : Nat
  /-- SPIKE_WIDTH_MAX (R39). -/
  spikeWidthMax : Nat
  /-- STUCK_PERIOD, in timer ticks (R230). -/
  stuckPeriod : Nat
  /-- SPIKE_PERIOD, in timer ticks (R192). -/
  spikePeriod : Nat
deriving DecidableEq, Repr

/-- The values R7 gives. -/
def Literals.given : Literals where
  syncLen := 3
  bit1Len := 2
  bit0Len := 1
  payloadBits := 10
  maxSearchRuns := 20
  rawRef := 154
  tempRef := 25
  ratioNum := 205
  ratioDen := 100
  margin := 3
  spikeWidthMax := 10
  stuckPeriod := ticksPerSecond
  spikePeriod := 1200

/-- RUNS_PER_MSG: the marker and the data runs (R7). -/
def Literals.runsPerMsg (c : Literals) : Nat := c.payloadBits + 1

/-- HIST_CAP: physical capacity of the history (R7, R32). -/
def Literals.histCap (c : Literals) : Nat := c.spikeWidthMax + 1

/-- An instance of the block: the parameters of R7. T_HALF, T_SETTLE, TACH_DELAY and T_TICK are timing only
and have no field (log entry 17). -/
structure Params where
  /-- The literals with a value. -/
  lit : Literals
  /-- FAN_AMOUNT. -/
  fanAmount : Nat
  /-- FAN_ORDER: the physical channel of each priority position. -/
  fanOrder : List Nat
  /-- MAX_STUCK_COUNT. -/
  maxStuck : Nat
  /-- TACH_SAMPLES. -/
  tachSamples : Nat
  /-- TACH_SETTLE, in timer ticks. -/
  tachSettle : Nat
  /-- RAMP_PERIOD, in timer ticks. -/
  rampPeriod : Nat
  /-- CONVERT. -/
  convert : Convert
  /-- OFF_MIN .. RESET_MIN. -/
  lo : Thresholds
  /-- OFF_MAX .. RESET_MAX. -/
  hi : Thresholds
  /-- DEF_OFF .. DEF_RESET. -/
  dflt : Thresholds
deriving DecidableEq, Repr

/-- The test parameter set TP of spec/95_test_vectors.md section 0.
DESIGN CHOICE (log entry 1): the instance State.reset carries; no claim about the device. -/
def Params.testSet : Params where
  lit := Literals.given
  fanAmount := 4
  fanOrder := [2, 0, 3, 1]
  maxStuck := 3
  tachSamples := 4
  tachSettle := 40
  rampPeriod := 20
  convert := .affine
  lo := { off := 0, on := 1, width := 1, height := 0, reset := 0 }
  hi := { off := 99, on := 100, width := 10, height := 50, reset := 100 }
  dflt := { off := 29, on := 32, width := 5, height := 5, reset := 10 }

/-- Free value (log entry 10): a configuration register after `RESET(main)`, which leaves it with no value (R310). -/
opaque Config.freeByte : Nat → Byte

/-- Free value (log entry 10): S after `RESET(sat)`, which leaves it with no defined value (R310). -/
opaque Config.freeSample : Nat → Sample

/-- Free value (log entry 20): the outcome of a decode call whose clock line was disturbed
(spec/93_implementation_defined.md U34). -/
opaque Config.freeOutcome : Nat → Machine.DecodeResult

end Sys2Proof
end

