-- ==== Sys2Proof/Syntax.lean ====
section
/-! DEFINITION. The instructions: one constructor per row of spec/opcode_table.json (spec/30_encoding.md R102, R111). -/

namespace Sys2Proof

/-- The two units (spec/00_scope.md R17). -/
inductive ResetUnit where
  | main | sat
deriving DecidableEq, Repr

/-- The operand of `LINK.RUN`: 3 while searching, 2 in the payload (spec/41_link_decoder.md R143). -/
inductive RunLimit where
  | search | payload
deriving DecidableEq, Repr

/-- One constructor per row of the opcode table. -/
inductive Instr where
  /-- S3: the synchronisation marker (R91). -/
  | s3
  /-- B1: a run that carries data bit 1 (R91). -/
  | b1
  /-- B0: a run that carries data bit 0 (R91). -/
  | b0
  /-- RUN.PAYLOAD3: a run of 3 in the payload (R95, R148). -/
  | runPayload3
  /-- RUN.LONG: a run of 4 or more (R95, R144). -/
  | runLong
  /-- RUN.NONSYNC21: the 21st non-marker run of a search, of length 2 if `two`, else of length 1 (R147). -/
  | runNonsync21 (two : Bool)
  /-- MSG: one whole message that carries `v` (R92, R127). -/
  | msg (v : Sample)
  /-- RESET (R310). -/
  | reset (unit : ResetUnit)
  /-- SAT.STEP (R121). -/
  | satStep
  /-- LINK.STEP with the glitch bit `g` (R66). -/
  | linkStep (g : Bool)
  /-- LINK.RUN (R143). -/
  | linkRun (limit : RunLimit)
  /-- LINK.SYNC (R146). -/
  | linkSync
  /-- LINK.PAYLOAD (R148). -/
  | linkPayload
  /-- LINK.DECODE (R140). -/
  | linkDecode
  /-- TF.CONVERT (R170). -/
  | tfConvert (v : Sample)
  /-- TF.UPDATE; `none` is NoMessage (R172, R29). -/
  | tfUpdate (raw : Option Sample)
  /-- SD.CLEAR (R186). -/
  | sdClear
  /-- SD.TICK (R185). -/
  | sdTick
  /-- FR.STATE (R200). -/
  | frState
  /-- FR.RAMP (R205). -/
  | frRamp
  /-- FR.OUT (R208). -/
  | frOut
  /-- TM.GATE (R226). -/
  | tmGate
  /-- TM.MEASURE (R228). -/
  | tmMeasure
  /-- TM.REPORT (R235). -/
  | tmReport
  /-- FA.EVAL (R245). -/
  | faEval
  /-- TIMER.TICK (R255). -/
  | timerTick
  /-- CTRL.TICK (R250). -/
  | ctrlTick
  /-- CFG.WRITE (R261). -/
  | cfgWrite (index : BitVec 3) (value : Byte)
  /-- CFG.LOAD (R265). -/
  | cfgLoad
  /-- EVENT.RESERVED_A: codes 0x16 and 0x17, with the word's bits 11:0 (R102). -/
  | eventReservedA (x : BitVec 12)
  /-- EVENT.RESERVED_B: codes 0x18 to 0x1F, with the word's bits 13:0 (R102). -/
  | eventReservedB (x : BitVec 14)
deriving DecidableEq, Repr

end Sys2Proof
end

