-- ==== Sys2Proof/WellFormed.lean ====
section
/-! DEFINITION. Which instructions are well formed: what the table and the rules fix about an instruction's own fields. -/

namespace Sys2Proof

/-- `CFG.WRITE` names one of the five fields (spec/47_sequencer_timer_config.md R261) and its value is not the
erased byte, which is outside every range (R264); the unused event codes stand for no operation (R102). -/
def Instr.wellFormed : Instr → Bool
  | .cfgWrite index value => decide (index.toNat ≤ 4) && decide (value ≠ 0xFF)
  | .eventReservedA _ => false
  | .eventReservedB _ => false
  | .s3 | .b1 | .b0 | .runPayload3 | .runLong | .runNonsync21 _ | .msg _ => true
  | .reset _ | .satStep | .linkStep _ | .linkRun _ | .linkSync | .linkPayload | .linkDecode => true
  | .tfConvert _ | .tfUpdate _ | .sdClear | .sdTick | .frState | .frRamp | .frOut => true
  | .tmGate | .tmMeasure | .tmReport | .faEval | .timerTick | .ctrlTick | .cfgLoad => true

end Sys2Proof
end

