-- ==== Sys2Proof/Decode.lean ====
section
/-! DEFINITION. The decoder and, after it, the encoder: event words (spec/30_encoding.md R102, R103, R111) and level
strings of the data line (R91 to R95). Both are total; what matches no row decodes to `none`. -/

namespace Sys2Proof

open Machine

/-- What is fetched: an event word with the operand word beside it (log entry 5), or the level string that the data
line shows, one level per half-cycle, earliest first (R90). -/
inductive Code where
  | word (w operand : EventWord)
  | levels (ls : List Bool)
deriving DecidableEq, Repr

/-- What a level string is read against (R91, R95): the line code's literals, the decoder's phase and count of non-marker runs, and the level of the
run before. -/
structure LineCtx where
  lit : Literals
  dphase : DPhase
  nonSync : Nat
  prev : Bool
deriving DecidableEq, Repr

/-- Bits 15:11 of an event word (R103). -/
def codeField (w : EventWord) : Nat := (w.extractLsb' 11 5).toNat
/-- Bits 10:8 (R103). -/
def indexField (w : EventWord) : BitVec 3 := w.extractLsb' 8 3
/-- Bits 7:0 (R103). -/
def valueField (w : EventWord) : Byte := w.extractLsb' 0 8
/-- Bits 10:0, zero for every operation but `CFG.WRITE` and `RESET` (R103). -/
def restField (w : EventWord) : BitVec 11 := w.extractLsb' 0 11

/-- An operation without fields: every bit under the code, and the operand word, must be zero (R103). -/
def decodePlain (i : Instr) (w operand : EventWord) : Option Instr :=
  if restField w = 0 ∧ operand = 0 then some i else none

/-- `RESET`: index 0 is the main unit, 1 the satellite (R103). -/
def decodeReset (w operand : EventWord) : Option Instr :=
  if valueField w = 0 ∧ operand = 0 then
    if indexField w = 0 then some (.reset .main)
    else if indexField w = 1 then some (.reset .sat)
    else none
  else none

/-- An operation whose operand word holds one bit (log entry 5). -/
def decodeBit (f : Bool → Instr) (w operand : EventWord) : Option Instr :=
  if restField w = 0 ∧ operand.toNat < 2 then some (f (operand.getLsbD 0)) else none

/-- `TF.CONVERT`: the operand word holds v in bits 9:0 (log entry 5). -/
def decodeConvert (w operand : EventWord) : Option Instr :=
  if restField w = 0 ∧ operand.toNat < 1024 then some (.tfConvert (operand.extractLsb' 0 10)) else none

/-- `TF.UPDATE`: the operand word holds the packed RawSample of R100 (log entry 5). -/
def decodeUpdate (w operand : EventWord) : Option Instr :=
  if restField w = 0 then
    if operand = 0 then some (.tfUpdate none)
    else if operand.extractLsb' 10 6 = 1 then some (.tfUpdate (some (operand.extractLsb' 0 10)))
    else none
  else none

/-- An operation that uses the whole word under its code; its operand word is zero. -/
def decodeWide (i : Instr) (operand : EventWord) : Option Instr :=
  if operand = 0 then some i else none

/-- The event word, row by row of R102. -/
def decodeWord (w operand : EventWord) : Option Instr :=
  match codeField w with
  | 0x00 => decodeReset w operand
  | 0x01 => decodePlain .satStep w operand
  | 0x02 => decodeBit .linkStep w operand
  | 0x03 => decodeBit (fun b => .linkRun (if b then .payload else .search)) w operand
  | 0x04 => decodePlain .linkSync w operand
  | 0x05 => decodePlain .linkPayload w operand
  | 0x06 => decodePlain .linkDecode w operand
  | 0x07 => decodeConvert w operand
  | 0x08 => decodeUpdate w operand
  | 0x09 => decodePlain .sdClear w operand
  | 0x0A => decodePlain .sdTick w operand
  | 0x0B => decodePlain .frState w operand
  | 0x0C => decodePlain .frRamp w operand
  | 0x0D => decodePlain .frOut w operand
  | 0x0E => decodePlain .tmGate w operand
  | 0x0F => decodePlain .tmMeasure w operand
  | 0x10 => decodePlain .tmReport w operand
  | 0x11 => decodePlain .faEval w operand
  | 0x12 => decodePlain .timerTick w operand
  | 0x13 => decodePlain .ctrlTick w operand
  | 0x14 => decodeWide (.cfgWrite (indexField w) (valueField w)) operand
  | 0x15 => decodePlain .cfgLoad w operand
  | 0x16 => decodeWide (.eventReservedA (w.extractLsb' 0 12)) operand
  | 0x17 => decodeWide (.eventReservedA (w.extractLsb' 0 12)) operand
  | _ => decodeWide (.eventReservedB (w.extractLsb' 0 14)) operand

/-- One run of `n` half-cycles, classified by the phase it is met in (R95, R147). While no call is measuring, the run is
read as the satellite's symbol (R91). -/
def decodeRun (ctx : LineCtx) (n : Nat) : Option Instr :=
  let last := ctx.dphase = .search ∧ ctx.nonSync = ctx.lit.maxSearchRuns
  let inCall := ctx.dphase = .search ∨ ctx.dphase = .payload
  if n = ctx.lit.bit0Len then some (if last then .runNonsync21 false else .b0)
  else if n = ctx.lit.bit1Len then some (if last then .runNonsync21 true else .b1)
  else if ctx.dphase = .payload ∧ ctx.lit.bit1Len < n ∧ n ≤ ctx.lit.syncLen then some .runPayload3
  else if n = ctx.lit.syncLen then some .s3
  else if ctx.lit.syncLen < n ∧ inCall then some .runLong
  else none

/-- The run lengths of a level string whose current run has level `p` and so far `n` half-cycles. -/
def runLengthsFrom (p : Bool) (n : Nat) : List Bool → List Nat
  | [] => [n]
  | x :: xs => if x = p then runLengthsFrom p (n + 1) xs else n :: runLengthsFrom x 1 xs

/-- The lengths of the maximal runs of a level string (R90). -/
def runLengths : List Bool → List Nat
  | [] => []
  | p :: xs => runLengthsFrom p 1 xs

/-- The data runs, least-significant bit first: length 2 is bit 1, length 1 is bit 0 (R92, R94). -/
def decodeBits (c : Literals) : Nat → List Nat → Option Nat
  | 0, [] => some 0
  | n + 1, r :: rs =>
    if r = c.bit1Len then (decodeBits c n rs).map (fun x => 2 * x + 1)
    else if r = c.bit0Len then (decodeBits c n rs).map (fun x => 2 * x)
    else none
  | _, _ => none

/-- A whole frame: the marker, then exactly the data runs (R92). -/
def decodeFrame (c : Literals) (ls : List Bool) : Option Instr :=
  match runLengths ls with
  | r :: rs =>
    if r = c.syncLen then (decodeBits c c.payloadBits rs).map (fun x => .msg (BitVec.ofNat 10 x)) else none
  | [] => none

/-- A level string: one run, or one whole frame; its first level is the inverse of the run before it (R91). -/
def decodeLevels (ctx : LineCtx) (ls : List Bool) : Option Instr :=
  match ls with
  | [] => none
  | p :: xs =>
    if p = ctx.prev then none
    else if xs.all (· == p) then decodeRun ctx (xs.length + 1)
    else decodeFrame ctx.lit ls

/-- The decoder. -/
def decode (ctx : LineCtx) : Code → Option Instr
  | .word w operand => decodeWord w operand
  | .levels ls => decodeLevels ctx ls

/-- An event word and its operand word from one number, bit 0 the least significant bit of the event word; the operand
word's bits count on from it. -/
def codeOfBits (nbits w : Nat) : Code :=
  .word (BitVec.ofNat 16 (w % 2 ^ nbits)) (BitVec.ofNat 16 ((w % 2 ^ nbits) / 2 ^ 16))

/-- The instruction the decoder reads from a table word of `nbits` bits. -/
def decodeTableWord (nbits w : Nat) : Option Instr :=
  decode { lit := Literals.given, dphase := .idle, nonSync := 0, prev := false } (codeOfBits nbits w)

/-! ### The encoder -/

/-- `code ++ index ++ value` (R103). -/
def eventWord (code : BitVec 5) (index : BitVec 3) (value : Byte) : EventWord := code ++ index ++ value

/-- An event word with only its code. -/
def plainCode (code : BitVec 5) : Code := .word (eventWord code 0 0) 0

/-- `Runs(V)` (R93): the marker, then `1 + V[i]` for each bit, least-significant first. -/
def runsOf (c : Literals) (v : Sample) : List Nat :=
  c.syncLen :: (List.range c.payloadBits).map (fun i => if v.getLsbD i then c.bit1Len else c.bit0Len)

/-- The level string of a list of runs that follows a run of level `q` (R93). -/
def levelsOf (q : Bool) : List Nat → List Bool
  | [] => []
  | n :: rs => List.replicate n (!q) ++ levelsOf (!q) rs

/-- The code of an instruction; a run's level is the inverse of the run before it (R91). -/
def encode (ctx : LineCtx) : Instr → Code
  | .s3 => .levels (levelsOf ctx.prev [ctx.lit.syncLen])
  | .b1 => .levels (levelsOf ctx.prev [ctx.lit.bit1Len])
  | .b0 => .levels (levelsOf ctx.prev [ctx.lit.bit0Len])
  | .runPayload3 => .levels (levelsOf ctx.prev [ctx.lit.syncLen])
  | .runLong => .levels (levelsOf ctx.prev [ctx.lit.syncLen + 1])
  | .runNonsync21 two => .levels (levelsOf ctx.prev [if two then ctx.lit.bit1Len else ctx.lit.bit0Len])
  | .msg v => .levels (levelsOf ctx.prev (runsOf ctx.lit v))
  | .reset .main => plainCode 0x00
  | .reset .sat => .word (eventWord 0x00 1 0) 0
  | .satStep => plainCode 0x01
  | .linkStep g => .word (eventWord 0x02 0 0) (if g then 1 else 0)
  | .linkRun .search => .word (eventWord 0x03 0 0) 0
  | .linkRun .payload => .word (eventWord 0x03 0 0) 1
  | .linkSync => plainCode 0x04
  | .linkPayload => plainCode 0x05
  | .linkDecode => plainCode 0x06
  | .tfConvert v => .word (eventWord 0x07 0 0) (0#6 ++ v)
  | .tfUpdate raw => .word (eventWord 0x08 0 0) (0#5 ++ packRaw raw)
  | .sdClear => plainCode 0x09
  | .sdTick => plainCode 0x0A
  | .frState => plainCode 0x0B
  | .frRamp => plainCode 0x0C
  | .frOut => plainCode 0x0D
  | .tmGate => plainCode 0x0E
  | .tmMeasure => plainCode 0x0F
  | .tmReport => plainCode 0x10
  | .faEval => plainCode 0x11
  | .timerTick => plainCode 0x12
  | .ctrlTick => plainCode 0x13
  | .cfgWrite index value => .word (eventWord 0x14 index value) 0
  | .cfgLoad => plainCode 0x15
  | .eventReservedA x => .word (0b1011#4 ++ x) 0
  | .eventReservedB x => .word (0b11#2 ++ x) 0

/-- Where an instruction may stand: the `context` column of the opcode table's RUN rows (R91, R95, R147); an event word
may stand anywhere. -/
def Instr.standsIn (ctx : LineCtx) : Instr → Bool
  | .s3 => ctx.dphase ≠ .payload
  | .b1 | .b0 => !(ctx.dphase = .search && ctx.nonSync = ctx.lit.maxSearchRuns)
  | .runPayload3 => ctx.dphase = .payload
  | .runLong => ctx.dphase = .search || ctx.dphase = .payload
  | .runNonsync21 _ => ctx.dphase = .search && ctx.nonSync = ctx.lit.maxSearchRuns
  | _ => true

/-- What the environment may start in a trace of the whole block (R14): the external operations of R102. No word with a
code 0x01 to 0x11 is among them (R103). The unused codes are refused by their own meaning (R301). -/
def Instr.isExternal : Instr → Bool
  | .reset _ | .timerTick | .ctrlTick | .cfgWrite _ _ | .cfgLoad => true
  | .eventReservedA _ | .eventReservedB _ => true
  | .s3 | .b1 | .b0 | .runPayload3 | .runLong | .runNonsync21 _ | .msg _ => false
  | .satStep | .linkStep _ | .linkRun _ | .linkSync | .linkPayload | .linkDecode => false
  | .tfConvert _ | .tfUpdate _ | .sdClear | .sdTick => false
  | .frState | .frRamp | .frOut | .tmGate | .tmMeasure | .tmReport | .faEval => false

/-- What the environment may start in a trace that exercises the link alone: SAT.STEP and LINK.DECODE (R14), and RESET of
either unit. DESIGN CHOICE (log entry 30): that no operation of the control loop is among them. The unused codes are
refused by their own meaning (R301). -/
def Instr.isLinkAlone : Instr → Bool
  | .satStep | .linkDecode | .reset _ => true
  | .eventReservedA _ | .eventReservedB _ => true
  | .s3 | .b1 | .b0 | .runPayload3 | .runLong | .runNonsync21 _ | .msg _ => false
  | .linkStep _ | .linkRun _ | .linkSync | .linkPayload | .tfConvert _ | .tfUpdate _ | .sdClear | .sdTick => false
  | .frState | .frRamp | .frOut | .tmGate | .tmMeasure | .tmReport | .faEval => false
  | .timerTick | .ctrlTick | .cfgWrite _ _ | .cfgLoad => false

end Sys2Proof
end

