-- ==== Sys2Proof/Machine/Constants.lean ====
section
/-! DEFINITION. The values of the block that are no parameter: the unknown temperature, the ceiling of a cadence counter,
the erased byte. -/

namespace Sys2Proof.Machine.Const

/-- UNKNOWN: the unknown smoothed temperature (R7, R30). -/
def unknownTemp : Temp := 0
/-- The value a cadence counter saturates at: all ones in CNT_W = 16 bits (R7, R42, R255). -/
def counterMax : Nat := 65535
/-- CFG_ERASED: the persisted byte that means "use default" (R7, R101). -/
def cfgErased : Byte := 0xFF

end Sys2Proof.Machine.Const
end

