-- ==== Sys2Proof/Machine/State.lean ====
section
/-! DEFINITION. The state of the two units (spec/10_state.md R21), the inputs the environment supplies
(spec/00_scope.md R19), the reasons a step stops, and the state after reset. Plain data throughout. -/

namespace Sys2Proof.Machine

/-- An input port: its present level, and the values of the next samples in order (R68, R69, R110; log entry 3). -/
structure Port (α : Type) where
  level : α
  draws : List α
deriving DecidableEq, Repr

/-- What the data line does to one sample (R66, R110): nothing; a glitch, g = 1; a level forced by a dead or faulty
line. -/
inductive LineFault where
  | clean | glitch | forced (level : Bool)
deriving DecidableEq, Repr

/-- What the clock line does in one link step (R128): one clock event reaches the satellite, as R66 says; the event
is missed; an extra one reaches it (log entry 20). -/
inductive ClockFault where
  | clean | missed | extra
deriving DecidableEq, Repr

/-- The environment's input to one link step: what happens to the sample and to the clock event, and whether the
satellite is reset within the step (R66, R128, R318). -/
structure LineInput where
  fault : LineFault
  clock : ClockFault
  resetSat : Bool
deriving DecidableEq, Repr

/-- What may arrive between two phases of a control tick (R251, R313). -/
inductive Async where
  | timerTick | resetMain | resetSat
deriving DecidableEq, Repr

/-- The inputs that accompany one event of a trace (R14, R110). -/
structure Inputs where
  /-- The ADC draws in order; the last one stays. -/
  adc : List Sample
  /-- The tachometer vectors in order; the last one stays. -/
  tach : List TachVec
  /-- The line's disturbance at link step 0, 1, ... -/
  line : List LineInput
  /-- What arrives at the first, second, ... interior phase boundary. -/
  async : List (List Async)
  /-- `b0..b4` of a `CFG.LOAD`: what the persistence collaborator holds in the bytes that nothing has written; without
  them it holds what it held (R14, U25; log entry 13). -/
  stored : Option Thresholds
deriving DecidableEq, Repr

/-- No input: ports keep their level, the line is fault-free, nothing arrives, the stored bytes stay. -/
def Inputs.none : Inputs := { adc := [], tach := [], line := [], async := [], stored := Option.none }

/-- One event of a trace (R14): its code and the inputs it draws. -/
structure Event where
  code : Code
  inputs : Inputs
deriving DecidableEq, Repr

/-- What a trace exercises (R14): the whole block, or the link alone. Fixed for the trace (log entry 30). -/
inductive TraceKind where
  | wholeBlock | linkAlone
deriving DecidableEq, Repr

/-- The satellite unit (R24, R25, R26). -/
structure Sat where
  /-- `r`: index of the run being emitted. -/
  r : BitVec 4
  /-- `k`: half-cycles of run `r` already emitted. -/
  k : BitVec 2
  /-- `d`: the level driven on the data line. -/
  d : Bool
  /-- `S`: the ADC sample. -/
  sample : Sample
deriving DecidableEq, Repr

/-- The decoder's own registers (R27). -/
structure Decoder where
  dphase : DPhase
  level : Bool
  count : BitVec 3
  nonSync : BitVec 5
  bitIndex : BitVec 4
  value : Sample
deriving DecidableEq, Repr

/-- Everything a link operation can touch: the satellite, the clock line, the decoder, its result, and the inputs of
the link (R66, R140). -/
structure Link where
  sat : Sat
  clk : Bool
  dec : Decoder
  /-- `raw`, the RawSample: `none` is NoMessage (R29). -/
  raw : Option Sample
  /-- The port `adc` (R68). -/
  adc : Port Sample
  /-- The line's disturbance at the coming link steps; past its end the line is fault-free (R66, log entry 4). -/
  line : List LineInput
  /-- MODEL's own: the number of free values used so far (log entry 10). -/
  free : Nat
deriving DecidableEq, Repr

/-- The four cadence counters (R42). -/
structure Cadence where
  ramp : Counter
  spike : Counter
  stuck : Counter
  full : Counter
deriving DecidableEq, Repr

/-- MODEL's own (log entry 14): the value the last operation that returns one has returned. -/
inductive Returned where
  | nothing
  | level (b : Bool)
  | run (m : RunLength)
  | sync (m : SyncResult)
  | decode (m : DecodeResult)
  | temp (t : Temp)
  | gate (b : Bool)
deriving DecidableEq, Repr

/-- The one space of bytes the spec has: the persisted configuration bytes that have been written, as (index, byte) pairs
in one canonical form, indices strictly rising (R72). An unlisted index has no value here: its byte is a draw (U25, log
entry 13). -/
abbrev Memory := List Host.Cell

/-- The state of the machine. -/
structure State where
  /-- MODEL's own: the instance (R7; log entries 1 and 18). -/
  par : Params
  /-- MODEL's own: operations to run one by one ahead of the trace, on the inputs as they stand (log entry 6). -/
  issued : List Code
  /-- MODEL's own: what the trace exercises (R14; log entry 30). -/
  traceKind : TraceKind
  /-- MODEL's own: the external events still to come (R14; log entry 19). -/
  trace : List Event
  /-- The link: satellite, clock line, decoder, `raw`. -/
  link : Link
  /-- `T`, the smoothed temperature, signed (R30). -/
  temp : Temp
  /-- `sensorFault` (R31). -/
  sensorFault : Bool
  /-- `hist`, newest first (R32). -/
  hist : List Temp
  /-- `cooldown` (R33). -/
  cooldown : Byte
  /-- `runState` (R34). -/
  runState : RunState
  /-- `fanCount` (R35). -/
  fanCount : Byte
  /-- `fan_en[c]`, index c (R47). -/
  fanEn : List Bool
  /-- `stuck[f]`, index f (R36). -/
  stuck : List Byte
  /-- `stuckFan` (R37). -/
  stuckFan : Option Byte
  /-- `fault` (R38). -/
  fault : FaultCode
  /-- ThresholdConfig (R39). -/
  cfg : Thresholds
  /-- MODEL's own: `CFG.LOAD` has completed since the last `RESET(main)` (R254; log entry 12). -/
  loaded : Bool
  /-- The cadence counters (R42). -/
  cad : Cadence
  /-- `phase` (R44). -/
  phase : Phase
  /-- `heartbeat` (R45). -/
  heartbeat : Bool
  /-- `cfg_byte[0..4]`, those that have been written (R72). -/
  bytes : Memory
  /-- What the persistence collaborator holds in the others: an input (U25; log entry 13). -/
  stored : Thresholds
  /-- The ports `tach[f]` (R69). -/
  tach : Port TachVec
  /-- What arrives at the coming interior phase boundaries (R251; log entry 8). -/
  async : List (List Async)
  /-- MODEL's own: what the last operation returned (log entry 14). -/
  ret : Returned
deriving DecidableEq, Repr

/-- A step never stops with a fault: "nothing is fatal" (R280); NoMessage, sensor fault and stuck fan are values of
the state (R13). No constructor, so nothing raises one; safe (log entry 22). -/
inductive Fault where
deriving DecidableEq, Repr

/-- The spec's refusals (R301), each under its own name. All are safe: the step has no meaning in the spec (R13). -/
inductive Refusal where
  /-- An instruction without a meaning yet, raised by its arm of exec. Safe. -/
  | notModelled (mnemonic : String)
  /-- `CFG.WRITE` with an index above 4, raised by CFG.WRITE (R261). Safe. -/
  | noSuchField
  /-- `CFG.WRITE` with a value outside the field's edit range or equal to 0xFF, raised by CFG.WRITE (R264). Safe. -/
  | outsideEditRange
  /-- `CFG.LOAD` whose result violates off < on, raised by CFG.LOAD (R265). Safe. -/
  | loadedThresholdsCross
  /-- `CFG.LOAD` whose result is outside a range, raised by CFG.LOAD (R265). Safe. -/
  | loadedOutsideRange
  /-- `CTRL.TICK` before a `CFG.LOAD` since the last reset, raised by CTRL.TICK (R254, R315). Safe. -/
  | configNotLoaded
  /-- `CTRL.TICK` while `phase` is not IDLE, raised by CTRL.TICK (R250, R301). Safe. -/
  | tickInProgress
  /-- `CFG.WRITE`, `CFG.LOAD` or a display read while `phase` is not IDLE, raised by those (R79, R80, R301). Safe. -/
  | onlyBetweenTicks
  /-- An event word with an unused code 0x16 to 0x1F, raised by EVENT.RESERVED_A and EVENT.RESERVED_B (R102). Safe. -/
  | unusedEventCode
  /-- A line symbol where it may not stand, raised by S3, B1, B0, MSG and the three violation classes (R91, R95;
  log entry 7). Safe. -/
  | symbolCannotStandHere
  /-- What is fetched matches no row, raised by step (R103, R301). Safe. -/
  | noSuchEvent
  /-- An internal operation or a line symbol as an external event: it cannot be started from outside, raised by step
  (R14, R102, R103; log entry 6). SAT.STEP and LINK.DECODE too, unless the link is exercised alone. Safe. -/
  | notAnExternalEvent
  /-- An operation of the control loop in a trace that exercises the link alone, raised by step (R14; log entry 30).
  Safe. -/
  | linkExercisedAlone
  /-- The instance breaks a constraint of its parameters, raised by step (R301). Safe. -/
  | badInstance
deriving DecidableEq, Repr

/-- The satellite after `RESET(sat)` (R52); S: DESIGN CHOICE 0 (log entry 10). -/
def Sat.reset : Sat := { r := 0, k := 0, d := false, sample := 0 }

/-- The decoder after reset (R51); its transient registers: DESIGN CHOICE (log entry 11). -/
def Decoder.reset : Decoder :=
  { dphase := .idle, level := false, count := 1, nonSync := 0, bitIndex := 0, value := 0 }

/-- Both units right after reset (R51, R52). The five configuration registers: DESIGN CHOICE 0 (log entry 10);
the instance: log entry 1; the ports: log entry 16; the persisted bytes: log entry 13; what the trace exercises: log
entry 30. -/
def State.reset : State where
  par := Params.testSet
  issued := []
  traceKind := .wholeBlock
  trace := []
  link :=
    { sat := Sat.reset, clk := false, dec := Decoder.reset, raw := none,
      adc := { level := 0, draws := [] }, line := [], free := 0 }
  temp := 0
  sensorFault := false
  hist := []
  cooldown := 0
  runState := .off
  fanCount := 0
  fanEn := List.replicate Params.testSet.fanAmount false
  stuck := List.replicate Params.testSet.fanAmount 0
  stuckFan := none
  fault := .none
  cfg := { off := 0, on := 0, width := 0, height := 0, reset := 0 }
  loaded := false
  cad := { ramp := 0, spike := 0, stuck := 0, full := 0 }
  phase := .idle
  heartbeat := false
  bytes := []
  stored := { off := 0xFF, on := 0xFF, width := 0xFF, height := 0xFF, reset := 0xFF }
  tach := { level := 0, draws := [] }
  async := []
  ret := .nothing

end Sys2Proof.Machine
end

