-- ==== Sys2Proof/Machine/Flags.lean ====
section
/-! DEFINITION. The one-bit conditions of spec/10_state.md R48. `sensorFault` is a register; the others are computed. -/

namespace Sys2Proof.Machine

/-- Spike armed: `cooldown > 0` (R48). -/
def State.spikeArmed (s : State) : Bool := s.cooldown ≠ 0

/-- Temperature unknown: `T = 0` (R48, R176). -/
def State.temperatureUnknown (s : State) : Bool := s.temp = Const.unknownTemp

/-- Fan f stuck: `stuck[f] = MAX_STUCK_COUNT` (R48, R36). -/
def State.fanStuck (s : State) (f : Nat) : Bool := (s.stuck.getD f 0).toNat = s.par.maxStuck

/-- Measurement eligible: the count is at its maximum and has been for TACH_SETTLE timer ticks (R48, R226). -/
def State.measurementEligible (s : State) : Bool :=
  s.fanCount.toNat = s.par.fanAmount ∧ s.par.tachSettle ≤ s.cad.full.toNat

/-- A cadence counter is due: `counter >= PERIOD` (R77). -/
def isDue (c : Counter) (period : Nat) : Bool := period ≤ c.toNat

/-- Ramp due (R48). -/
def State.rampDue (s : State) : Bool := isDue s.cad.ramp s.par.rampPeriod

/-- Spike cadence due (R48). -/
def State.spikeDue (s : State) : Bool := isDue s.cad.spike s.par.lit.spikePeriod

/-- Count eligible (R48, R230). -/
def State.countEligible (s : State) : Bool := isDue s.cad.stuck s.par.lit.stuckPeriod

end Sys2Proof.Machine
end

