-- ==== Sys2Proof/Machine/Operands.lean ====
section
/-! DEFINITION. The operand forms: the field an index names, the limit of a run measurement, the samples of a port, and
the run length a symbol stands for. -/

namespace Sys2Proof.Machine

/-- The field that `CFG.WRITE`'s index names: 0 off, 1 on, 2 width, 3 height, 4 reset; none above 4 (R39, R261). -/
def fieldOf (index : BitVec 3) : Option (Fin 5) :=
  if h : index.toNat < 5 then some ⟨index.toNat, h⟩ else none

/-- Register `i` of five (R39). -/
def getField (t : Thresholds) : Fin 5 → Byte
  | 0 => t.off | 1 => t.on | 2 => t.width | 3 => t.height | 4 => t.reset

/-- Register `i` of five replaced (R39). -/
def setField (t : Thresholds) (i : Fin 5) (b : Byte) : Thresholds :=
  match i with
  | 0 => { t with off := b }
  | 1 => { t with on := b }
  | 2 => { t with width := b }
  | 3 => { t with height := b }
  | 4 => { t with reset := b }

/-- The operand of `LINK.RUN`: 3 while searching, 2 in the payload (R143). -/
def limitOf (c : Literals) : RunLimit → Nat
  | .search => c.syncLen
  | .payload => c.bit1Len

/-- One sample of an input port: the next draw, which the port then keeps, or the level it has (R68, R69, R110;
log entry 3). -/
def samplePort {α : Type} (p : Port α) : α × Port α :=
  match p.draws with
  | [] => (p.level, p)
  | v :: vs => (v, { level := v, draws := vs })

/-- `RunLen(r, S)`: 3 for the marker, 2 for a bit 1, 1 for a bit 0 (R122). Past run 10, where no run reaches, a bit of
S beyond bit 9 reads 0 (log entry 26). -/
def runLen (c : Literals) (r : BitVec 4) (sample : Sample) : Nat :=
  if r = 0 then c.syncLen
  else if sample.getLsbD (r.toNat - 1) then c.bit1Len
  else c.bit0Len

end Sys2Proof.Machine
end

