-- ==== Sys2Proof/Machine/Ops.lean ====
section
/-! DEFINITION. The shared operations over bytes, counters and ports (spec/20_memory.md), the abort of a decode call
(the block's one `raise`, R11, R290), the two resets, and the check of an instance (R301). -/

namespace Sys2Proof.Machine

/-! ### The persisted bytes -/

/-- Byte `i` as it was last written; none where nothing has written it (R72; log entry 13). -/
def Memory.read : Memory → Nat → Option Byte
  | [], _ => none
  | (a, b) :: m, i => if a = i then some b else Memory.read m i

/-- The byte put in its place in the canonical form. -/
def Memory.write : Memory → Nat → Byte → Memory
  | [], i, b => [(i, b)]
  | (a, c) :: m, i, b =>
    if i < a then (i, b) :: (a, c) :: m
    else if i = a then (i, b) :: m
    else (a, c) :: Memory.write m i b

/-- The canonical form: indices strictly rising and at most 4. -/
def Memory.wf (m : Memory) : Bool :=
  decide (m.Pairwise (fun x y => x.1 < y.1)) && m.all (fun c => decide (c.1 < 5))

/-- `CfgByteRead(i)`, i in 0 .. 4 (R72): the byte last written, or what the persistence collaborator holds there (U25). -/
def cfgByteRead (stored : Thresholds) (m : Memory) (i : Fin 5) : Byte := (Memory.read m i.val).getD (getField stored i)

/-- `CfgByteWrite(i, b)`, i in 0 .. 4 (R72). -/
def cfgByteWrite (m : Memory) (i : Fin 5) (b : Byte) : Memory := Memory.write m i.val b

/-! ### Counters -/

/-- `min(c + 1, 65535)` (R255). -/
def countUp (c : Counter) : Counter := BitVec.ofNat 16 (min (c.toNat + 1) Const.counterMax)

/-- `Due(cnt, PERIOD)`: one atomic test-and-clear (R77). -/
def due (c : Counter) (period : Nat) : Bool × Counter :=
  if isDue c period then (true, 0) else (false, c)

/-- `TIMER.TICK`'s work: the four counters, nothing else (R255). -/
def timerWork (s : State) : State :=
  { s with cad := { ramp := countUp s.cad.ramp, spike := countUp s.cad.spike,
                    stuck := countUp s.cad.stuck, full := countUp s.cad.full } }

/-! ### Fan outputs -/

/-- `DriveFans(K)`: channel `FAN_ORDER[j]` is 1 if `j < K` else 0, for every position j (R70). -/
def driveFans (p : Params) (k : Nat) : List Bool :=
  (List.range p.fanAmount).map (fun c => decide (p.fanOrder.idxOf c < k))

/-! ### The decode call's end -/

/-- An abort: the call is over and its result is NoMessage (R140, R150). Nothing else is recorded (R280). -/
def abortCall (l : Link) : Link := { l with dec := { l.dec with dphase := .idle }, raw := none }

/-- The normal end: the call is over and its result is `Value(v)` (R140). -/
def finishCall (l : Link) (v : Sample) : Link := { l with dec := { l.dec with dphase := .idle }, raw := some v }

/-- The call over with either result (R140). -/
def endCall (m : DecodeResult) (l : Link) : Link :=
  match m with
  | .value v => finishCall l v
  | .noMessage _ => abortCall l

/-- The end of a call whose clock line was disturbed: any RawSample, a free value
(spec/93_implementation_defined.md U34; log entry 20). -/
def endOpen (l : Link) : Link × DecodeResult :=
  (endCall (Config.freeOutcome l.free) { l with free := l.free + 1 }, Config.freeOutcome l.free)

/-- `Wait(t)`: lets time pass and changes no state (R67, R151; log entry 17). -/
def waitSettle (l : Link) : Link := l

/-! ### Resets -/

/-- `RESET(sat)`: r, k, d; S keeps no defined value: a free value (R310; log entry 10). -/
def resetSatellite (l : Link) : Link :=
  { l with sat := { r := 0, k := 0, d := false, sample := Config.freeSample l.free }, free := l.free + 1 }

/-- The five configuration registers with no value: free values (R310; log entry 10). -/
def freeThresholds (n : Nat) : Thresholds :=
  { off := Config.freeByte n, on := Config.freeByte (n + 1), width := Config.freeByte (n + 2),
    height := Config.freeByte (n + 3), reset := Config.freeByte (n + 4) }

/-- `RESET(main)`: the reset column of R21 for the main unit. The satellite, the persisted bytes and the environment
are untouched (R311). -/
def resetMain (s : State) : State :=
  { s with
    link := { s.link with clk := false, dec := { s.link.dec with dphase := .idle }, raw := none, free := s.link.free + 5 }
    temp := Const.unknownTemp
    sensorFault := false
    hist := []
    cooldown := 0
    runState := .off
    fanCount := 0
    fanEn := List.replicate s.par.fanAmount false
    stuck := List.replicate s.par.fanAmount 0
    stuckFan := none
    fault := .none
    cfg := freeThresholds s.link.free
    loaded := false
    cad := { ramp := 0, spike := 0, stuck := 0, full := 0 }
    phase := .idle
    heartbeat := false }

/-! ### The display's reads -/

/-- What the Display/Menu collaborator reads (R54). -/
structure DisplayView where
  temp : Temp
  runState : RunState
  fault : FaultCode
  heartbeat : Bool
deriving DecidableEq, Repr

/-- A Display/Menu read: only between control ticks (R54, R80, R301); it changes nothing. -/
def displayRead (s : State) : Except Refusal DisplayView :=
  if s.phase = .idle then
    .ok { temp := s.temp, runState := s.runState, fault := s.fault, heartbeat := s.heartbeat }
  else .error .onlyBetweenTicks

/-! ### The instance -/

/-- The default CONVERT on integers: `25 + tdiv((v - 154) * 100, 205)` (R170). -/
def convertAffine (c : Literals) (v : Sample) : Int :=
  c.tempRef + (((v.toNat : Int) - c.rawRef) * c.ratioDen).tdiv c.ratioNum

/-- `CONVERT(v)` of an instance (R170; log entry 2). -/
def convert (p : Params) (v : Sample) : Temp :=
  match p.convert with
  | .affine => BitVec.ofInt 16 (convertAffine p.lit v)
  | .table es => es.getD v.toNat 0

/-- A table entry is within one degree of the line through (154, 25) of slope 1/2.05 (R170; log entry 2). -/
def nearLine (c : Literals) (v : Nat) (t : Temp) : Bool :=
  let e := c.ratioNum * (t.toInt - c.tempRef) - c.ratioDen * ((v : Int) - c.rawRef)
  decide (-(c.ratioNum : Int) < e ∧ e < c.ratioNum)

/-- Consecutive entries do not fall. -/
def nonDecreasing : List Temp → Bool
  | a :: b :: ts => decide (a.toInt ≤ b.toInt) && nonDecreasing (b :: ts)
  | _ => true

/-- What any CONVERT must satisfy (R170; log entry 2): the default needs only the s16 range. -/
def convertOk (c : Literals) : Convert → Bool
  | .affine => decide (-32768 ≤ convertAffine c 0 ∧ convertAffine c 1023 ≤ 32767)
  | .table es =>
    decide (es.length = 1024) && decide ((es.getD c.rawRef 0).toInt = c.tempRef) && nonDecreasing es &&
      (List.range 1024).all (fun v => nearLine c v (es.getD v 0))

/-- The literals fit the widths of R21, and meet what spec/93_implementation_defined.md U1 and U2 ask of them
(log entry 18). -/
def literalsOk (c : Literals) : Bool :=
  decide (1 ≤ c.bit0Len ∧ c.bit0Len < c.bit1Len ∧ c.bit1Len < c.syncLen ∧ c.syncLen ≤ 4) &&
  decide (1 ≤ c.payloadBits ∧ c.payloadBits ≤ 10) && decide (11 ≤ c.maxSearchRuns ∧ c.maxSearchRuns ≤ 30) &&
  decide (c.rawRef ≤ 1023 ∧ 1 ≤ c.ratioNum ∧ 1 ≤ c.ratioDen) && decide (1 ≤ c.stuckPeriod ∧ 1 ≤ c.spikePeriod)

/-- `MIN[i] <= DEF[i] <= MAX[i] <= 254` for one field (92_eei_decisions.md D27). -/
def rangeOk (lo dflt hi : Byte) : Bool :=
  decide (lo.toNat ≤ dflt.toNat ∧ dflt.toNat ≤ hi.toNat ∧ hi.toNat ≤ 254)

/-- FAN_ORDER is a permutation of 0 .. FAN_AMOUNT-1 (R7). -/
def orderOk (p : Params) : Bool :=
  decide (p.fanOrder.length = p.fanAmount) && (List.range p.fanAmount).all (fun c => p.fanOrder.contains c)

/-- The instance satisfies the constraints of R7, R170 and 92_eei_decisions.md D16, D21, D23, D27. -/
def instanceOk (p : Params) : Bool :=
  literalsOk p.lit &&
  decide (1 ≤ p.fanAmount ∧ p.fanAmount ≤ 255) && orderOk p &&
  decide (1 ≤ p.maxStuck ∧ p.maxStuck ≤ 255) && decide (1 ≤ p.tachSamples) && decide (1 ≤ p.rampPeriod) &&
  convertOk p.lit p.convert &&
  rangeOk p.lo.off p.dflt.off p.hi.off && rangeOk p.lo.on p.dflt.on p.hi.on &&
  rangeOk p.lo.width p.dflt.width p.hi.width && rangeOk p.lo.height p.dflt.height p.hi.height &&
  rangeOk p.lo.reset p.dflt.reset p.hi.reset &&
  decide (p.hi.width.toNat = p.lit.spikeWidthMax) && decide (p.hi.off.toNat + 1 ≤ p.hi.on.toNat) &&
  decide (p.lo.off.toNat + 1 ≤ p.lo.on.toNat) && decide (p.dflt.off.toNat < p.dflt.on.toNat)

/-- A configuration within the edit ranges, with off < on (R39, R40, R265). -/
def inRanges (p : Params) (t : Thresholds) : Bool :=
  (List.finRange 5).all (fun i =>
    decide ((getField p.lo i).toNat ≤ (getField t i).toNat ∧ (getField t i).toNat ≤ (getField p.hi i).toNat))

/-! ### Fetching -/

/-- What a level string is read against (R95, log entry 27). While a call measures, the run on the line is the one
`level` belongs to, so the run before it has the other level. -/
def lineCtx (s : State) : LineCtx :=
  { lit := s.par.lit
    dphase := s.link.dec.dphase
    nonSync := s.link.dec.nonSync.toNat
    prev := match s.link.dec.dphase with
      | .idle | .settle => s.link.sat.d
      | .search | .payload => !s.link.dec.level }

/-- The state in which the event's operation runs: the event has left the trace, and its inputs are the inputs to come
(R14, log entry 3). -/
def acceptEvent (s : State) (e : Event) (rest : List Event) : State :=
  { s with
    trace := rest
    link := { s.link with adc := { s.link.adc with draws := e.inputs.adc }, line := e.inputs.line }
    tach := { s.tach with draws := e.inputs.tach }
    async := e.inputs.async
    stored := e.inputs.stored.getD s.stored }

/-- The instruction that a code stands for in this state. -/
def fetchInstr (s : State) (code : Code) : Option Instr := decode (lineCtx s) code

/-- The state in which the word's operation runs next, ahead of everything else (log entries 5, 6 and 19). -/
def issueWord (s : State) (nbits w : Nat) : State := { s with issued := codeOfBits nbits w :: s.issued }

end Sys2Proof.Machine
end

