-- ==== Sys2Proof/Machine/ConfigOps.lean ====
section
/-! DEFINITION. The configuration operations (spec/47_sequencer_timer_config.md): CFG.WRITE, CFG.LOAD. -/

namespace Sys2Proof.Machine

/-- The value lies in the field's edit range and is not the erased byte (R261, R264). -/
def inEditRange (p : Params) (i : Fin 5) (value : Byte) : Bool :=
  decide ((getField p.lo i).toNat ≤ value.toNat ∧ value.toNat ≤ (getField p.hi i).toNat) &&
    decide (value ≠ Const.cfgErased)

/-- The registers and the persisted bytes after the field and, if it collides, the other threshold have been written
(R261, R262, R263). -/
def writeField (i : Fin 5) (value : Byte) (s : State) : State :=
  let cfg := setField s.cfg i value
  if i = 0 ∧ cfg.on.toNat ≤ cfg.off.toNat then
    { s with
      cfg := { cfg with on := value + 1 }
      bytes := cfgByteWrite (cfgByteWrite s.bytes 1 (value + 1)) 0 value }
  else if i = 1 ∧ cfg.on.toNat ≤ cfg.off.toNat then
    { s with
      cfg := { cfg with off := value - 1 }
      bytes := cfgByteWrite (cfgByteWrite s.bytes 0 (value - 1)) 1 value }
  else { s with cfg := cfg, bytes := cfgByteWrite s.bytes i value }

/-- CFG.WRITE (R261). -/
def execCfgWrite (index : BitVec 3) (value : Byte) (s : State) : Host.Outcome State Fault Refusal :=
  if s.phase ≠ .idle then .refused .onlyBetweenTicks
  else match fieldOf index with
    | none => .refused .noSuchField
    | some i => if inEditRange s.par i value then .next (writeField i value s) else .refused .outsideEditRange

/-- Register i from persisted byte i: the default if the byte is erased (R265). -/
def loadField (p : Params) (stored : Thresholds) (m : Memory) (i : Fin 5) : Byte :=
  if cfgByteRead stored m i = Const.cfgErased then getField p.dflt i else cfgByteRead stored m i

/-- The five registers a load gives (R265). -/
def loadedConfig (p : Params) (stored : Thresholds) (m : Memory) : Thresholds :=
  { off := loadField p stored m 0, on := loadField p stored m 1, width := loadField p stored m 2,
    height := loadField p stored m 3, reset := loadField p stored m 4 }

/-- CFG.LOAD (R265). -/
def execCfgLoad (s : State) : Host.Outcome State Fault Refusal :=
  let cfg := loadedConfig s.par s.stored s.bytes
  if s.phase ≠ .idle then .refused .onlyBetweenTicks
  else if cfg.on.toNat ≤ cfg.off.toNat then .refused .loadedThresholdsCross
  else if inRanges s.par cfg then .next { s with cfg := cfg, loaded := true }
  else .refused .loadedOutsideRange

end Sys2Proof.Machine
end

