-- ==== Sys2Proof/Machine/Satellite.lean ====
section
/-! DEFINITION. The SatelliteEncoder (spec/40_satellite_encoder.md): SAT.STEP. -/

namespace Sys2Proof.Machine

/-- The sample that decides the length of the run the next event belongs to, and the ADC port after that event: run 1
draws its sample as it starts (R121, R123). -/
def sampleAhead (l : Link) : Sample × Port Sample :=
  if l.sat.k = 0 ∧ l.sat.r = 1 then samplePort l.adc else (l.sat.sample, l.adc)

/-- The satellite's reaction to one clock event (R121). -/
def satReact (c : Literals) (l : Link) : Link :=
  let d := if l.sat.k = 0 then !l.sat.d else l.sat.d
  let drawn := sampleAhead l
  if l.sat.k.toNat + 1 = runLen c l.sat.r drawn.1 then
    { l with
      sat := { r := if l.sat.r.toNat + 1 = c.runsPerMsg then 0 else l.sat.r + 1, k := 0, d := d, sample := drawn.1 }
      adc := drawn.2 }
  else
    { l with sat := { r := l.sat.r, k := l.sat.k + 1, d := d, sample := drawn.1 }, adc := drawn.2 }

/-- `n` clock events in a row. -/
def satReacts (c : Literals) : Nat → Link → Link
  | 0, l => l
  | n + 1, l => satReacts c n (satReact c l)

/-- SAT.STEP (R121). -/
def execSatStep (s : State) : Host.Outcome State Fault Refusal :=
  .next { s with link := satReact s.par.lit s.link }

end Sys2Proof.Machine
end

