-- ==== Sys2Proof/Machine/LinkDecoder.lean ====
section
/-! DEFINITION. The LinkDecoder (spec/41_link_decoder.md): LINK.STEP, LINK.RUN, LINK.SYNC, LINK.PAYLOAD, LINK.DECODE.
Every loop is structural on the count the rule gives it. -/

namespace Sys2Proof.Machine

/-- The level the main unit samples, given the level the satellite drives (R66, R110). -/
def sampledLevel (f : LineFault) (d : Bool) : Bool :=
  match f with
  | .clean => d
  | .glitch => !d
  | .forced b => b

/-- The satellite in one link step: it reacts to each clock event that reaches it (R121, R128; log entry 20). -/
def clockEvents (c : Literals) (f : ClockFault) (l : Link) : Link :=
  match f with
  | .clean => satReact c l
  | .missed => l
  | .extra => satReact c (satReact c l)

/-- `LinkStep()` under one line input: the clock event, the satellite's reaction, the sample (R66). A satellite reset
inside the step comes before the reaction (R318, log entry 9). -/
def linkStepWith (c : Literals) (x : LineInput) (l : Link) : Link × Bool :=
  let l := { l with clk := !l.clk }
  let l := if x.resetSat then resetSatellite l else l
  let l := clockEvents c x.clock l
  (l, sampledLevel x.fault l.sat.d)

/-- The next line input; past the end the line is fault-free (R66, log entry 4). -/
def nextLine (l : Link) : LineInput × Link :=
  match l.line with
  | [] => ({ fault := .clean, clock := .clean, resetSat := false }, l)
  | x :: xs => (x, { l with line := xs })

/-- `LinkStep()` (R66). -/
def linkHalfCycle (c : Literals) (l : Link) : Link × Bool :=
  let x := nextLine l
  linkStepWith c x.1 x.2

/-- LINK.RUN's loop (R143, R144): `more` is how many further equal samples the limit still admits. -/
def runLoop (c : Literals) : Nat → Link → Link × RunLength
  | more, l =>
    let x := linkHalfCycle c l
    if x.2 ≠ x.1.dec.level then
      ({ x.1 with dec := { x.1.dec with level := x.2 } }, .length x.1.dec.count.toNat)
    else
      let l' := { x.1 with dec := { x.1.dec with count := x.1.dec.count + 1 } }
      match more with
      | 0 => (l', .tooLong)
      | more + 1 => runLoop c more l'

/-- `LINK.RUN(limit)`: one run, whose first half-cycle has been sampled (R143). -/
def measureRun (c : Literals) (limit : Nat) (l : Link) : Link × RunLength :=
  runLoop c (limit - 1) { l with dec := { l.dec with count := 1 } }

/-- What one measured run means while searching (R95, R146); no verdict is "keep searching". -/
def judgeSearchRun (c : Literals) (m : RunLength) (l : Link) : Link × Option SyncResult :=
  match m with
  | .tooLong => (l, some (.noMessage .searchRunTooLong))
  | .length n =>
    if n = c.syncLen then (l, some .synced)
    else
      let l := { l with dec := { l.dec with nonSync := l.dec.nonSync + 1 } }
      if c.maxSearchRuns < l.dec.nonSync.toNat then (l, some (.noMessage .syncFailure)) else (l, none)

/-- LINK.SYNC's loop (R146): at most `n` runs; the verdict comes at the latest at the 21st (R147). -/
def syncLoop (c : Literals) : Nat → Link → Link × SyncResult
  | 0, l => (l, .noMessage .syncFailure)
  | n + 1, l =>
    let x := measureRun c c.syncLen l
    match judgeSearchRun c x.2 x.1 with
    | (l', some r) => (l', r)
    | (l', none) => syncLoop c n l'

/-- `LINK.SYNC` (R146). -/
def searchMarker (c : Literals) (l : Link) : Link × SyncResult :=
  syncLoop c (c.maxSearchRuns + 1) { l with dec := { l.dec with nonSync := 0 } }

/-- One payload run of length `n`: bit 1 for 2, bit 0 for 1, at position `bitIndex` (R148). -/
def takeBit (c : Literals) (n : Nat) (l : Link) : Link :=
  let value := if n = c.bit1Len then l.dec.value ||| (1#10 <<< l.dec.bitIndex.toNat) else l.dec.value
  { l with dec := { l.dec with value := value, bitIndex := l.dec.bitIndex + 1 } }

/-- LINK.PAYLOAD's loop over the runs still to read (R148). -/
def payloadLoop (c : Literals) : Nat → Link → Link × DecodeResult
  | 0, l => (l, .value l.dec.value)
  | n + 1, l =>
    let x := measureRun c c.bit1Len l
    match x.2 with
    | .tooLong => (x.1, .noMessage .payloadRunTooLong)
    | .length k => payloadLoop c n (takeBit c k x.1)

/-- The payload's registers before its first run (R148). -/
def clearPayload (l : Link) : Link := { l with dec := { l.dec with value := 0, bitIndex := 0 } }

/-- `LINK.PAYLOAD` (R148). -/
def readPayload (c : Literals) (l : Link) : Link × DecodeResult := payloadLoop c c.payloadBits (clearPayload l)

/-- `dphase <- p` (R150). -/
def setDPhase (p : DPhase) (l : Link) : Link := { l with dec := { l.dec with dphase := p } }

/-- The call's second half, from the marker on (R140, R151). -/
def decodePayload (c : Literals) (l : Link) : Link × DecodeResult :=
  let x := readPayload c (setDPhase .payload (waitSettle (setDPhase .settle l)))
  (endCall x.2 x.1, x.2)

/-- The call's reference sample: the first half-cycle of the first run (R141). -/
def referenceSample (c : Literals) (l : Link) : Link :=
  let x := linkHalfCycle c (setDPhase .search l)
  { x.1 with dec := { x.1.dec with level := x.2 } }

/-- One decode call on the levels it samples (R140). -/
def judgedCall (c : Literals) (l : Link) : Link × DecodeResult :=
  let x := searchMarker c (referenceSample c l)
  match x.2 with
  | .noMessage cause => (abortCall x.1, .noMessage cause)
  | .synced => decodePayload c x.1

/-- Between `l` and `l'` the clock line was disturbed: a line input that was used up says so (R128). -/
def clockDisturbed (l l' : Link) : Bool :=
  (l.line.take (l.line.length - l'.line.length)).any (fun x => decide (x.clock ≠ .clean))

/-- `LINK.DECODE`: one decode call (R140). Where the clock line was disturbed during it, its outcome is any RawSample
(spec/93_implementation_defined.md U34; log entry 20). -/
def decodeCall (c : Literals) (l : Link) : Link × DecodeResult :=
  let x := judgedCall c l
  if clockDisturbed l x.1 then endOpen x.1 else x

/-- LINK.STEP with its glitch bit (R66). -/
def execLinkStep (g : Bool) (s : State) : Host.Outcome State Fault Refusal :=
  let x := linkStepWith s.par.lit { fault := if g then .glitch else .clean, clock := .clean, resetSat := false } s.link
  .next { s with link := x.1, ret := .level x.2 }

/-- LINK.RUN (R143). -/
def execLinkRun (limit : RunLimit) (s : State) : Host.Outcome State Fault Refusal :=
  let x := measureRun s.par.lit (limitOf s.par.lit limit) s.link
  .next { s with link := x.1, ret := .run x.2 }

/-- LINK.SYNC (R146). -/
def execLinkSync (s : State) : Host.Outcome State Fault Refusal :=
  let x := searchMarker s.par.lit s.link
  .next { s with link := x.1, ret := .sync x.2 }

/-- LINK.PAYLOAD (R148). -/
def execLinkPayload (s : State) : Host.Outcome State Fault Refusal :=
  let x := readPayload s.par.lit s.link
  .next { s with link := x.1, ret := .decode x.2 }

/-- LINK.DECODE (R140). -/
def execLinkDecode (s : State) : Host.Outcome State Fault Refusal :=
  let x := decodeCall s.par.lit s.link
  .next { s with link := x.1, ret := .decode x.2 }

end Sys2Proof.Machine
end

