-- ==== Sys2Proof/Machine/LineSymbols.lean ====
section
/-! DEFINITION. The symbols of the line code and the message frame as instructions (spec/30_encoding.md R91, R92, R95;
log entry 7). Between decode calls a symbol is what the satellite emits (R91, R127); inside a call it is a run that the
decoder measures and judges (R95). During the settle wait there is no clock event (R67), so no run. -/

namespace Sys2Proof.Machine

/-- The satellite emits one run of `n` half-cycles: possible only where the run it is about to start has that length. -/
def emitRun (n : Nat) (s : State) : Host.Outcome State Fault Refusal :=
  if s.link.sat.k = 0 ∧ s.link.sat.r.toNat < s.par.lit.runsPerMsg ∧ runLen s.par.lit s.link.sat.r (sampleAhead s.link).1 = n then
    .next { s with link := satReacts s.par.lit n s.link }
  else .refused .symbolCannotStandHere

/-- The levels the line shows after the first half-cycle of a run of `n`: `n - 1` equal ones, then the inversion. -/
def shownRun (level : Bool) (n : Nat) : List LineInput :=
  (List.replicate (n - 1) level ++ [!level]).map (fun b => { fault := .forced b, clock := .clean, resetSat := false })

/-- The decoder measures a run of `n` half-cycles that the line shows it; line inputs to come are untouched. -/
def measureShown (c : Literals) (limit n : Nat) (l : Link) : Link × RunLength :=
  let x := measureRun c limit { l with line := shownRun l.dec.level n }
  ({ x.1 with line := l.line }, x.2)

/-- The call aborts with a cause (R153). -/
def abortWith (c : Cause) (l : Link) (s : State) : State :=
  { s with link := abortCall l, ret := .decode (.noMessage c) }

/-- A run of `n` half-cycles while searching (R95, R146). -/
def searchShown (n : Nat) (s : State) : State :=
  let x := measureShown s.par.lit s.par.lit.syncLen n s.link
  match judgeSearchRun s.par.lit x.2 x.1 with
  | (l, none) => { s with link := l }
  | (l, some .synced) => { s with link := clearPayload (setDPhase .payload (waitSettle (setDPhase .settle l))) }
  | (l, some (.noMessage c)) => abortWith c l s

/-- A run of `n` half-cycles while reading the payload; the tenth ends the call (R95, R148). -/
def payloadShown (n : Nat) (s : State) : State :=
  let x := measureShown s.par.lit s.par.lit.bit1Len n s.link
  match x.2 with
  | .tooLong => abortWith .payloadRunTooLong x.1 s
  | .length k =>
    let l := takeBit s.par.lit k x.1
    if l.dec.bitIndex.toNat < s.par.lit.payloadBits then { s with link := l }
    else { s with link := finishCall l l.dec.value, ret := .decode (.value l.dec.value) }

/-- One run of `n` half-cycles on the line (R91, R95). -/
def lineRun (n : Nat) (s : State) : Host.Outcome State Fault Refusal :=
  match s.link.dec.dphase with
  | .idle => emitRun n s
  | .search => .next (searchShown n s)
  | .settle => .refused .symbolCannotStandHere
  | .payload => .next (payloadShown n s)

/-- Runs in a row inside a call, until the call is over: after it no further run is measured (R153). -/
def callRuns : List Nat → State → State
  | [], s => s
  | n :: rs, s =>
    match s.link.dec.dphase with
    | .search => callRuns rs (searchShown n s)
    | .payload => callRuns rs (payloadShown n s)
    | .idle | .settle => s

/-- The satellite emits one whole message that carries `v`: `ENCODE(v, d)` (R127). -/
def emitMessage (v : Sample) (s : State) : Host.Outcome State Fault Refusal :=
  if s.link.sat.r = 0 ∧ s.link.sat.k = 0 then
    .next { s with
      link := satReacts s.par.lit (runsOf s.par.lit v).sum
        { s.link with adc := { s.link.adc with draws := v :: s.link.adc.draws } } }
  else .refused .symbolCannotStandHere

/-- S3 (R91, R95). -/
def execS3 (s : State) : Host.Outcome State Fault Refusal := lineRun s.par.lit.syncLen s

/-- B1 (R91, R95). -/
def execB1 (s : State) : Host.Outcome State Fault Refusal := lineRun s.par.lit.bit1Len s

/-- B0 (R91, R95). -/
def execB0 (s : State) : Host.Outcome State Fault Refusal := lineRun s.par.lit.bit0Len s

/-- RUN.PAYLOAD3, context dphase = PAYLOAD: aborts at the third half-cycle (R95, R148). -/
def execRunPayload3 (s : State) : Host.Outcome State Fault Refusal :=
  if s.link.dec.dphase = .payload then .next (payloadShown s.par.lit.syncLen s) else .refused .symbolCannotStandHere

/-- RUN.LONG, context dphase = SEARCH or PAYLOAD: aborts at the fourth half-cycle, in the payload at the third
(R95, R144). -/
def execRunLong (s : State) : Host.Outcome State Fault Refusal :=
  match s.link.dec.dphase with
  | .search => .next (searchShown (s.par.lit.syncLen + 1) s)
  | .payload => .next (payloadShown (s.par.lit.syncLen + 1) s)
  | .idle => .refused .symbolCannotStandHere
  | .settle => .refused .symbolCannotStandHere

/-- RUN.NONSYNC21, context dphase = SEARCH and nonSync = 20: aborts when the run has ended (R147). -/
def execRunNonsync21 (two : Bool) (s : State) : Host.Outcome State Fault Refusal :=
  if s.link.dec.dphase = .search ∧ s.link.dec.nonSync.toNat = s.par.lit.maxSearchRuns then
    .next (searchShown (if two then s.par.lit.bit1Len else s.par.lit.bit0Len) s)
  else .refused .symbolCannotStandHere

/-- MSG: emitted between calls (R92, R127); inside a call, measured run by run (R95). -/
def execMsg (v : Sample) (s : State) : Host.Outcome State Fault Refusal :=
  match s.link.dec.dphase with
  | .idle => emitMessage v s
  | .settle => .refused .symbolCannotStandHere
  | .search => .next (callRuns (runsOf s.par.lit v) s)
  | .payload => .next (callRuns (runsOf s.par.lit v) s)

end Sys2Proof.Machine
end

