-- ==== Sys2Proof/Machine/Reserved.lean ====
section
/-! DEFINITION. The unused event codes (spec/30_encoding.md R102): refused (spec/60_exceptions.md R301). -/

namespace Sys2Proof.Machine

/-- EVENT.RESERVED_A, codes 0x16 and 0x17 (R102, R301): the spec gives the step no meaning. -/
def execEventReservedA (_x : BitVec 12) (_s : State) : Host.Outcome State Fault Refusal :=
  .refused .unusedEventCode

/-- EVENT.RESERVED_B, codes 0x18 to 0x1F (R102, R301): the spec gives the step no meaning. -/
def execEventReservedB (_x : BitVec 14) (_s : State) : Host.Outcome State Fault Refusal :=
  .refused .unusedEventCode

end Sys2Proof.Machine
end

