-- ==== Sys2Proof/Machine/FanRamp.lean ====
section
/-! DEFINITION. The FanRampController (spec/44_fan_ramp_controller.md): FR.STATE, FR.RAMP, FR.OUT. -/

namespace Sys2Proof.Machine

/-- The next RunState (R200, R201): sensor fault, then cooldown, then the thresholds, else retained (R203). -/
def nextRunState (s : State) : RunState :=
  if s.sensorFault then .off
  else if s.spikeArmed then .spike
  else if s.temp.toInt ≤ (s.cfg.off.toNat : Int) then .off
  else if (s.cfg.on.toNat : Int) ≤ s.temp.toInt then .on
  else s.runState

/-- `FR.STATE` (R200). -/
def updateRunState (s : State) : State := { s with runState := nextRunState s }

/-- The next fan count of a due ramp tick: one toward the target, or unchanged (R205, R207). -/
def nextFanCount (s : State) : Byte :=
  if s.runState = .off then
    if 0 < s.fanCount.toNat then s.fanCount - 1 else s.fanCount
  else
    if s.fanCount.toNat < s.par.fanAmount then s.fanCount + 1 else s.fanCount

/-- `FR.RAMP` (R205): `fullCnt` is cleared exactly when the count changes. -/
def rampTick (s : State) : State :=
  let d := due s.cad.ramp s.par.rampPeriod
  if d.1 then
    let n := nextFanCount s
    { s with
      fanCount := n
      cad := { s.cad with ramp := d.2, full := if n = s.fanCount then s.cad.full else 0 } }
  else s

/-- `FR.OUT` (R208). -/
def driveOutputs (s : State) : State := { s with fanEn := driveFans s.par s.fanCount.toNat }

/-- FR.STATE (R200). -/
def execFrState (s : State) : Host.Outcome State Fault Refusal := .next (updateRunState s)

/-- FR.RAMP (R205). -/
def execFrRamp (s : State) : Host.Outcome State Fault Refusal := .next (rampTick s)

/-- FR.OUT (R208). -/
def execFrOut (s : State) : Host.Outcome State Fault Refusal := .next (driveOutputs s)

end Sys2Proof.Machine
end

