-- ==== Sys2Proof/Machine/FaultAggregator.lean ====
section
/-! DEFINITION. The FaultAggregator (spec/46_fault_aggregator.md): FA.EVAL. -/

namespace Sys2Proof.Machine

/-- The fault code: a pure function of the sensor fault and the stuck-fan report (R245, R246, R247). -/
def faultOf (sensorFault : Bool) (stuckFan : Option Byte) : FaultCode :=
  if sensorFault then .sensor
  else match stuckFan with
    | some f => .fan f
    | none => .none

/-- `FA.EVAL` (R245). -/
def evalFault (s : State) : State := { s with fault := faultOf s.sensorFault s.stuckFan }

/-- FA.EVAL (R245). -/
def execFaEval (s : State) : Host.Outcome State Fault Refusal := .next (evalFault s)

end Sys2Proof.Machine
end

