-- ==== Sys2Proof/Machine/SpikeDetector.lean ====
section
/-! DEFINITION. The SpikeDetector (spec/43_spike_detector.md): SD.TICK. -/

namespace Sys2Proof.Machine

/-- The push: the newest sample in front, cut to `width + 1` samples (R187), and never more than the history's
`cap` cells (R32; log entry 15). -/
def pushHistory (cap : Nat) (width : Byte) (t : Temp) (hist : List Temp) : List Temp :=
  (t :: hist).take (min (width.toNat + 1) cap)

/-- The spike condition on mathematical integers (R189). -/
def isSpike (height : Byte) (newest ref : Temp) : Bool :=
  decide (ref.toInt < newest.toInt ∧ (height.toNat : Int) ≤ newest.toInt - ref.toInt)

/-- The comparison is made once `width + 1` samples are held, between the newest and the one `width` samples back
(R188). -/
def spikeSeen (cfg : Thresholds) (hist : List Temp) : Bool :=
  decide (cfg.width.toNat + 1 ≤ hist.length) && isSpike cfg.height (hist.getD 0 0) (hist.getD cfg.width.toNat 0)

/-- One sample of an unarmed, fault-free cadence tick (R185). -/
def sampleHistory (s : State) : State :=
  let hist := pushHistory s.par.lit.histCap s.cfg.width s.temp s.hist
  if spikeSeen s.cfg hist then { s with cooldown := s.cfg.reset, hist := [] } else { s with hist := hist }

/-- `SD.TICK` (R185): the cadence, then the cooldown, then the sensor fault, then the sample (R191). -/
def spikeTick (s : State) : State :=
  let d := due s.cad.spike s.par.lit.spikePeriod
  if d.1 then
    let s := { s with cad := { s.cad with spike := d.2 } }
    if s.spikeArmed then { s with cooldown := s.cooldown - 1 }
    else if s.sensorFault then s
    else sampleHistory s
  else s

/-- SD.TICK (R185). -/
def execSdTick (s : State) : Host.Outcome State Fault Refusal := .next (spikeTick s)

end Sys2Proof.Machine
end

