-- ==== Sys2Proof/Machine/Tachometer.lean ====
section
/-! DEFINITION. The TachometerMonitor (spec/45_tachometer_monitor.md): TM.GATE, TM.MEASURE, TM.REPORT. -/

namespace Sys2Proof.Machine

/-- Every fan has shown a transition: `changed = ALL_ONES` on the FAN_AMOUNT lines (R228). -/
def allChanged (fans : Nat) (changed : TachVec) : Bool := (List.range fans).all (fun f => changed.getLsbD f)

/-- The window's re-samples: differences against the first sample are OR-accumulated; early stop (R228, R229). -/
def sampleWindow (fans : Nat) (first : TachVec) : Nat → TachVec → Port TachVec → TachVec × Port TachVec
  | 0, changed, p => (changed, p)
  | n + 1, changed, p =>
    let x := samplePort p
    let changed := changed ||| (x.1 ^^^ first)
    if allChanged fans changed then (changed, x.2) else sampleWindow fans first n changed x.2

/-- The next stuck counter of a fan (R228, R232). -/
def nextStuck (maxStuck : Nat) (changed eligible : Bool) (c : Byte) : Byte :=
  if changed then 0
  else if eligible then BitVec.ofNat 8 (min (c.toNat + 1) maxStuck)
  else c

/-- `TM.MEASURE` (R228). -/
def measureFans (s : State) : State :=
  let d := due s.cad.stuck s.par.lit.stuckPeriod
  let first := samplePort s.tach
  let w := sampleWindow s.par.fanAmount first.1 s.par.tachSamples 0 first.2
  { s with
    cad := { s.cad with stuck := d.2 }
    tach := w.2
    stuck := (List.range s.par.fanAmount).map
      (fun f => nextStuck s.par.maxStuck (w.1.getLsbD f) d.1 (s.stuck.getD f 0)) }

/-- The least fan whose counter is saturated (R37, R235). -/
def firstStuck (s : State) : Option Byte :=
  ((List.range s.par.fanAmount).find? s.fanStuck).map (BitVec.ofNat 8)

/-- `TM.REPORT` (R235). -/
def reportStuck (s : State) : State := { s with stuckFan := firstStuck s }

/-- TM.GATE: it writes nothing; its result is what the operation returns (R226; log entry 14). -/
def execTmGate (s : State) : Host.Outcome State Fault Refusal :=
  .next { s with ret := .gate s.measurementEligible }

/-- TM.MEASURE (R228). -/
def execTmMeasure (s : State) : Host.Outcome State Fault Refusal := .next (measureFans s)

/-- TM.REPORT (R235). -/
def execTmReport (s : State) : Host.Outcome State Fault Refusal := .next (reportStuck s)

end Sys2Proof.Machine
end

