-- ==== Sys2Proof/Machine/TemperatureFilter.lean ====
section
/-! DEFINITION. The TemperatureFilter (spec/42_temperature_filter.md) and SD.CLEAR (spec/43_spike_detector.md R186),
which it calls on a sensor fault. -/

namespace Sys2Proof.Machine

/-- `hist <- []` (R186). -/
def clearHistory (s : State) : State := { s with hist := [] }

/-- The dead-band rate limiter: the next `T` for an instantaneous value (R172, R174, R175). -/
def filterStep (margin : Nat) (t inst : Temp) : Temp :=
  if t = Const.unknownTemp then inst
  else if t.toInt + margin < inst.toInt then t + 1
  else if inst.toInt < t.toInt - margin then t - 1
  else t

/-- `TF.UPDATE(raw)` (R172); `none` is NoMessage. -/
def updateTemperature (raw : Option Sample) (s : State) : State :=
  match raw with
  | none => clearHistory { s with sensorFault := true, temp := Const.unknownTemp }
  | some v => { s with sensorFault := false, temp := filterStep s.par.lit.margin s.temp (convert s.par v) }

/-- TF.CONVERT: a result, no state (R170); the result is what the operation returns (log entry 14). -/
def execTfConvert (v : Sample) (s : State) : Host.Outcome State Fault Refusal :=
  .next { s with ret := .temp (convert s.par v) }

/-- TF.UPDATE (R172). -/
def execTfUpdate (raw : Option Sample) (s : State) : Host.Outcome State Fault Refusal :=
  .next (updateTemperature raw s)

/-- SD.CLEAR (R186). -/
def execSdClear (s : State) : Host.Outcome State Fault Refusal := .next (clearHistory s)

end Sys2Proof.Machine
end

