-- ==== Sys2Proof/Machine/Sequencer.lean ====
section
/-! DEFINITION. The control tick, the timer tick and RESET (spec/47_sequencer_timer_config.md, spec/70_reset_and_hazards.md
R310). -/

namespace Sys2Proof.Machine

/-- One thing that arrives between two phases (R251, R313). -/
def arrive (s : State) : Async → State
  | .timerTick => timerWork s
  | .resetMain => resetMain s
  | .resetSat => { s with link := resetSatellite s.link }

/-- What arrives at the next interior phase boundary (R251; log entry 8). -/
def arrivals (s : State) : State :=
  match s.async with
  | [] => s
  | as :: rest => as.foldl arrive { s with async := rest }

/-- The boundary between two phases, then the second phase; a RESET(main) that arrives ends the tick (R251, R318). -/
def nextPhase (done next : Phase) (body : State → State) (s : State) : State :=
  if s.phase = done then
    let s := arrivals s
    if s.phase = done then body { s with phase := next } else s
  else s

/-- Phase SENSE: `LINK.DECODE`; `TF.UPDATE` (R250). -/
def phaseSense (s : State) : State :=
  let l := (decodeCall s.par.lit s.link).1
  updateTemperature l.raw { s with link := l }

/-- Phase RAMP: `FR.RAMP`; `FR.OUT` (R250). -/
def phaseRamp (s : State) : State := driveOutputs (rampTick s)

/-- Phase TACH: `TM.MEASURE` if `TM.GATE`; `TM.REPORT` (R250). -/
def phaseTach (s : State) : State := reportStuck (if s.measurementEligible then measureFans s else s)

/-- Phase FAULT: `FA.EVAL`; the heartbeat; then IDLE (R250, R253). -/
def phaseFault (s : State) : State :=
  let s := evalFault s
  { s with heartbeat := !s.heartbeat, phase := .idle }

/-- `CTRL.TICK`'s phases in order (R250). -/
def controlTick (s : State) : State :=
  let s := phaseSense { s with phase := .sense }
  let s := nextPhase .sense .spike spikeTick s
  let s := nextPhase .spike .state updateRunState s
  let s := nextPhase .state .ramp phaseRamp s
  let s := nextPhase .ramp .tach phaseTach s
  nextPhase .tach .fault phaseFault s

/-- CTRL.TICK (R250): refused inside a tick, and before a configuration is loaded (R254, R301). -/
def execCtrlTick (s : State) : Host.Outcome State Fault Refusal :=
  if s.phase ≠ .idle then .refused .tickInProgress
  else if s.loaded then .next (controlTick s)
  else .refused .configNotLoaded

/-- TIMER.TICK (R255). -/
def execTimerTick (s : State) : Host.Outcome State Fault Refusal := .next (timerWork s)

/-- RESET (R310). -/
def execReset (unit : ResetUnit) (s : State) : Host.Outcome State Fault Refusal :=
  match unit with
  | .main => .next (resetMain s)
  | .sat => .next { s with link := resetSatellite s.link }

end Sys2Proof.Machine
end

