-- ==== Sys2Proof/Machine/Dispatch.lean ====
section
/-! DEFINITION. One arm per instruction, one direct call of its meaning. -/

namespace Sys2Proof.Machine

def exec (i : Instr) (s : State) : Host.Outcome State Fault Refusal :=
  match i with
  | .s3 => Sys2Proof.Machine.execS3 s
  | .b1 => Sys2Proof.Machine.execB1 s
  | .b0 => Sys2Proof.Machine.execB0 s
  | .runPayload3 => Sys2Proof.Machine.execRunPayload3 s
  | .runLong => Sys2Proof.Machine.execRunLong s
  | .runNonsync21 two => Sys2Proof.Machine.execRunNonsync21 two s
  | .msg v => Sys2Proof.Machine.execMsg v s
  | .reset unit => Sys2Proof.Machine.execReset unit s
  | .satStep => Sys2Proof.Machine.execSatStep s
  | .linkStep g => Sys2Proof.Machine.execLinkStep g s
  | .linkRun limit => Sys2Proof.Machine.execLinkRun limit s
  | .linkSync => Sys2Proof.Machine.execLinkSync s
  | .linkPayload => Sys2Proof.Machine.execLinkPayload s
  | .linkDecode => Sys2Proof.Machine.execLinkDecode s
  | .tfConvert v => Sys2Proof.Machine.execTfConvert v s
  | .tfUpdate raw => Sys2Proof.Machine.execTfUpdate raw s
  | .sdClear => Sys2Proof.Machine.execSdClear s
  | .sdTick => Sys2Proof.Machine.execSdTick s
  | .frState => Sys2Proof.Machine.execFrState s
  | .frRamp => Sys2Proof.Machine.execFrRamp s
  | .frOut => Sys2Proof.Machine.execFrOut s
  | .tmGate => Sys2Proof.Machine.execTmGate s
  | .tmMeasure => Sys2Proof.Machine.execTmMeasure s
  | .tmReport => Sys2Proof.Machine.execTmReport s
  | .faEval => Sys2Proof.Machine.execFaEval s
  | .timerTick => Sys2Proof.Machine.execTimerTick s
  | .ctrlTick => Sys2Proof.Machine.execCtrlTick s
  | .cfgWrite index value => Sys2Proof.Machine.execCfgWrite index value s
  | .cfgLoad => Sys2Proof.Machine.execCfgLoad s
  | .eventReservedA x => Sys2Proof.Machine.execEventReservedA x s
  | .eventReservedB x => Sys2Proof.Machine.execEventReservedB x s

end Sys2Proof.Machine
end

