-- ==== Sys2Proof/Machine/Events.lean ====
section
/-! DEFINITION. How an operation comes to run: as an external event of the trace (spec/00_scope.md R14), or issued on its
own. -/

namespace Sys2Proof.Machine

/-- Why the environment cannot start the operation in a trace of this kind (R14, R102, R103; log entries 6 and 30); none
if it can. -/
def refusedInTrace (k : TraceKind) (i : Instr) : Option Refusal :=
  match k with
  | .wholeBlock => if i.isExternal then none else some .notAnExternalEvent
  | .linkAlone =>
    if i.isLinkAlone then none
    else if i.isExternal then some .linkExercisedAlone
    else some .notAnExternalEvent

/-- The first event of the trace: its operation runs with the event's inputs. What matches no row is refused (R103), and
so is what cannot be started in this trace. -/
def runEvent (s : State) (e : Event) (rest : List Event) : Host.Outcome State Fault Refusal :=
  match fetchInstr s e.code with
  | none => .refused .noSuchEvent
  | some i =>
    match refusedInTrace s.traceKind i with
    | none => exec i (acceptEvent s e rest)
    | some r => .refused r

/-- An operation issued on its own: it runs in the state as it stands, as its caller would run it (log entry 6). -/
def runIssued (s : State) (code : Code) (rest : List Code) : Host.Outcome State Fault Refusal :=
  match fetchInstr s code with
  | some i => exec i { s with issued := rest }
  | none => .refused .noSuchEvent

/-- A step of an instance that breaks a constraint has no meaning (R301). -/
def ofValidInstance (s : State) (x : Host.Outcome State Fault Refusal) : Host.Outcome State Fault Refusal :=
  if instanceOk s.par then x else .refused .badInstance

/-- The next event of the trace, or nothing while the environment issues none (R312). -/
def runTrace (s : State) : Host.Outcome State Fault Refusal :=
  match s.trace with
  | e :: rest => ofValidInstance s (runEvent s e rest)
  | [] => ofValidInstance s (.next s)

/-- What runs next: what has been issued, else the trace. -/
def runNext (s : State) : Host.Outcome State Fault Refusal :=
  match s.issued with
  | code :: rest => ofValidInstance s (runIssued s code rest)
  | [] => runTrace s

end Sys2Proof.Machine
end

