-- ==== Sys2Proof/Safety.lean ====
section
/-! DEFINITION. What counts as a good state, in the terms the statements use (spec/10_state.md R50, with what the other
rules add), and runs of operations. -/

namespace Sys2Proof.Machine

/-- The invariants of spec/10_state.md R50 that hold between any two operations, and the ranges of R21. -/
structure State.Inv (s : State) : Prop where
  /-- The instance satisfies its constraints (R301). -/
  params_ok : instanceOk s.par = true
  /-- R50 (1). -/
  fanCount_le : s.fanCount.toNat ≤ s.par.fanAmount
  /-- One enable output per channel (R47). -/
  fanEn_length : s.fanEn.length = s.par.fanAmount
  /-- One counter per fan (R36). -/
  stuck_length : s.stuck.length = s.par.fanAmount
  /-- R50 (2). -/
  stuck_le : ∀ c ∈ s.stuck, c.toNat ≤ s.par.maxStuck
  /-- The stuck-fan report is a fan index (R21). -/
  stuckFan_lt : ∀ f, s.stuckFan = some f → f.toNat < s.par.fanAmount
  /-- The fault's index is a fan index (R38). -/
  fault_lt : ∀ f, s.fault = .fan f → f.toNat < s.par.fanAmount
  /-- R50 (3): at most HIST_CAP. -/
  hist_le : s.hist.length ≤ s.par.lit.histCap
  /-- R50 (4). -/
  fault_unknown : s.sensorFault = true → s.temp = 0 ∧ s.hist = []
  /-- A loaded configuration is legal (R39, R40). -/
  config_ok : s.loaded = true → s.cfg.off.toNat < s.cfg.on.toNat ∧ inRanges s.par s.cfg = true
  /-- The persisted bytes keep their canonical form. -/
  bytes_wf : Memory.wf s.bytes = true
  /-- No control tick is under way between two events (R44). -/
  phase_idle : s.phase = .idle
  /-- No decode call is under way between two events (R23). -/
  dphase_idle : s.link.dec.dphase = .idle
  /-- R50 (7), and r is a run index (R21). -/
  sat_position : s.link.sat.r.toNat ≤ s.par.lit.payloadBits ∧
    s.link.sat.k.toNat < runLen s.par.lit s.link.sat.r s.link.sat.sample

/-- Operations one after the other, stopping at the first that gives no next state. -/
def execList : List Instr → State → Host.Outcome State Fault Refusal
  | [], s => .next s
  | i :: is, s =>
    match exec i s with
    | .next t => execList is t
    | .fault f => .fault f
    | .refused r => .refused r

/-- Sample number `i` of a port, counted from the next one: the draws in order, then the last value again (R110). -/
def portSample {α : Type} (p : Port α) (i : Nat) : α := (p.draws[i]?).getD (p.draws.getLast?.getD p.level)

/-- A fault-free link step (R66, g = 0, one clock event). -/
def cleanStep : LineInput := { fault := .clean, clock := .clean, resetSat := false }

/-- A line input that only fixes the sampled level (R110, `dead=`). -/
def showLevel (b : Bool) : LineInput := { fault := .forced b, clock := .clean, resetSat := false }

/-- The link after `n` link steps that no decoder looks at (R66). -/
def linkSteps (c : Literals) : Nat → Link → Link
  | 0, l => l
  | n + 1, l => linkSteps c n (linkHalfCycle c l).1

/-- The level that link step number `i` from here samples, counted from 0 (R66). -/
def lineLevel (c : Literals) (l : Link) (i : Nat) : Bool := (linkHalfCycle c (linkSteps c i l)).2

/-- The coming link steps sample exactly these levels, in order. -/
def Link.shows (l : Link) (c : Literals) (ls : List Bool) : Prop := (List.range ls.length).map (lineLevel c l) = ls

/-- No clock-line fault in the coming `n` link steps (R128). -/
def Link.clockSound (l : Link) (n : Nat) : Prop := ∀ x ∈ l.line.take n, x.clock = .clean

/-- The number of bits of a sample that are 1 (R93). -/
def popcount (v : Sample) : Nat := ((List.range 10).map (fun i => if v.getLsbD i then 1 else 0)).sum

/-- Half-cycles left in the message under way, 0 between two messages (spec/41_link_decoder.md R158). While the marker
is under way, or run 1 is about to start, the message's sample is the next ADC draw. -/
def restOfMessage (c : Literals) (l : Link) : Nat :=
  if l.sat.r = 0 ∧ l.sat.k = 0 then 0
  else
    let sample := if l.sat.r = 0 ∨ (l.sat.r = 1 ∧ l.sat.k = 0) then portSample l.adc 0 else l.sat.sample
    ((List.range c.runsPerMsg).map
      (fun j => if l.sat.r.toNat ≤ j then runLen c (BitVec.ofNat 4 j) sample else 0)).sum - l.sat.k.toNat

/-- The (match, mask) pairs of the EVENT rows of spec/opcode_table.json, in its order. -/
def eventRows : List (EventWord × EventWord) :=
  [(0x0000, 0xFEFF), (0x0800, 0xFFFF), (0x1000, 0xFFFF), (0x1800, 0xFFFF), (0x2000, 0xFFFF), (0x2800, 0xFFFF),
   (0x3000, 0xFFFF), (0x3800, 0xFFFF), (0x4000, 0xFFFF), (0x4800, 0xFFFF), (0x5000, 0xFFFF), (0x5800, 0xFFFF),
   (0x6000, 0xFFFF), (0x6800, 0xFFFF), (0x7000, 0xFFFF), (0x7800, 0xFFFF), (0x8000, 0xFFFF), (0x8800, 0xFFFF),
   (0x9000, 0xFFFF), (0x9800, 0xFFFF), (0xA000, 0xF800), (0xA800, 0xFFFF), (0xB000, 0xF000), (0xC000, 0xC000)]

/-- What arrives between two phases, as the operation it is (R251, R313). -/
def Async.instr : Async → Instr
  | .timerTick => .timerTick
  | .resetMain => .reset .main
  | .resetSat => .reset .sat

/-- The first outcome's next state goes into the second operation. -/
def andThen (x : Host.Outcome State Fault Refusal) (f : State → Host.Outcome State Fault Refusal) :
    Host.Outcome State Fault Refusal :=
  match x with
  | .next t => f t
  | .fault e => .fault e
  | .refused r => .refused r

/-- The operations of one phase of a control tick, run on their own (R104, R250). -/
def phaseAlone (p : Phase) (s : State) : Host.Outcome State Fault Refusal :=
  match p with
  | .idle => .next s
  | .sense => andThen (exec .linkDecode s) (fun t => exec (.tfUpdate t.link.raw) t)
  | .spike => exec .sdTick s
  | .state => exec .frState s
  | .ramp => execList [.frRamp, .frOut] s
  | .tach => execList (if s.measurementEligible then [.tmMeasure, .tmReport] else [.tmReport]) s
  | .fault => exec .faEval s

/-- Phases in order, each with what arrives at the boundary after it. -/
def phasesAlone : List (Phase × List Async) → State → Host.Outcome State Fault Refusal
  | [], s => .next s
  | (p, as) :: rest, s =>
    andThen (phaseAlone p s) (fun t => andThen (execList (as.map Async.instr) t) (phasesAlone rest))

/-- The phases of a control tick that have an interior boundary after them (R250, R251). -/
def boundaryPhases : List Phase := [.sense, .spike, .state, .ramp, .tach]

end Sys2Proof.Machine
end

