-- ==== Sys2Proof/Certificates/Slice0/Obligations.lean ====
section
/-! DEFINITION. The statements for the provers. Each says what the numbered rules of spec/ say, or, where its docstring
names a log entry, what the model chose. A next state written as a record update is the frame: every field it does not
name is unchanged. -/

section Statements

open Sys2Proof Sys2Proof.Machine

/-! ### The satellite -/

/-- R121, R122, R123: one clock event at any position of any run (`k < RunLen`, R24), for every valid choice of the
literals that R122 names. -/
def Obligations.SatStepFollowsTheRun : Prop :=
  ∀ s : State,
    let r := s.link.sat.r
    let k := s.link.sat.k
    let starts := k = 0 ∧ r = 1
    let sample := if starts then portSample s.link.adc 0 else s.link.sat.sample
    let n := if r = 0 then s.par.lit.syncLen
      else if sample.getLsbD (r.toNat - 1) then s.par.lit.bit1Len else s.par.lit.bit0Len
    instanceOk s.par = true → r.toNat ≤ s.par.lit.payloadBits → k.toNat < runLen s.par.lit r s.link.sat.sample →
    ∃ t, exec .satStep s = .next t ∧
      t = { s with link := { s.link with sat := t.link.sat, adc := t.link.adc } } ∧
      t.link.sat.d = (if k = 0 then !s.link.sat.d else s.link.sat.d) ∧
      t.link.sat.sample = sample ∧
      (k.toNat + 1 = n → t.link.sat.k = 0 ∧ t.link.sat.r = if r.toNat = s.par.lit.payloadBits then 0 else r + 1) ∧
      (k.toNat + 1 ≠ n → t.link.sat.k.toNat = k.toNat + 1 ∧ t.link.sat.r = r) ∧
      t.link.adc = if starts then { level := sample, draws := s.link.adc.draws.tail } else s.link.adc

/-- R127: `13 + popcount(V)` clock events from a message boundary drive `Levels(V, q)` and leave the satellite at the
next boundary. -/
def Obligations.SatelliteEmitsTheMessage : Prop :=
  ∀ (s : State) (v : Sample), s.par.lit = Literals.given →
    s.link.sat.r = 0 → s.link.sat.k = 0 → portSample s.link.adc 0 = v →
    (levelsOf s.link.sat.d (runsOf s.par.lit v)).length = 13 + popcount v ∧
    (∀ n b, (levelsOf s.link.sat.d (runsOf s.par.lit v))[n]? = some b →
      ∃ t, execList (List.replicate (n + 1) .satStep) s = .next t ∧ t.link.sat.d = b) ∧
    ∃ t, execList (List.replicate (13 + popcount v) .satStep) s = .next t ∧
      t.link.sat = { r := 0, k := 0, d := !s.link.sat.d, sample := v } ∧
      t = { s with link := { s.link with sat := t.link.sat, adc := t.link.adc } }

/-! ### The symbols and the frame as instructions -/

/-- The model's choice (log entries 7 and 25): `MSG` between two decode calls is the emission of R127 with V as the
sample the ADC yields. -/
def Obligations.MsgEmitsOneMessage : Prop :=
  ∀ (s : State) (v : Sample), s.par.lit = Literals.given →
    s.link.dec.dphase = .idle → s.link.sat.r = 0 → s.link.sat.k = 0 →
    exec (.msg v) s = .next { s with link := { s.link with
      sat := { r := 0, k := 0, d := !s.link.sat.d, sample := v }
      adc := { level := v, draws := s.link.adc.draws } } }

/-- R94, R95, R148 for a whole frame shown to a call (log entry 7): a searching call decodes it to its value; a marker
inside the payload is a violation. That `value` still holds V after the call is the model's choice
(log entry 11). -/
def Obligations.MsgShownToADecodeCall : Prop :=
  ∀ (s : State) (v : Sample), s.par.lit = Literals.given →
    (s.link.dec.dphase = .search →
      ∃ t, exec (.msg v) s = .next t ∧
        t = { s with link := t.link, ret := .decode (.value v) } ∧
        t.link.raw = some v ∧ t.link.dec.dphase = .idle ∧ t.link.dec.value = v ∧ t.link.line = s.link.line) ∧
    (s.link.dec.dphase = .payload →
      ∃ t, exec (.msg v) s = .next t ∧
        t = { s with link := t.link, ret := .decode (.noMessage .payloadRunTooLong) } ∧
        t.link.raw = none ∧ t.link.dec.dphase = .idle ∧ t.link.line = s.link.line)

/-- R95, column "while searching", and R147 (the symbols as instructions: log entry 7). That `nonSync` after
RUN.NONSYNC21 and the decoder's registers after RUN.LONG keep their values, the call being over, is the model's choice (log
entry 11). -/
def Obligations.SymbolsWhileSearching : Prop :=
  ∀ s : State, s.par.lit = Literals.given → s.link.dec.dphase = .search →
    (∃ t u, exec .s3 s = .next t ∧ execList (List.replicate 3 .satStep) s = .next u ∧
      t = { s with link := { s.link with
        sat := u.link.sat, adc := u.link.adc, clk := !s.link.clk
        dec := { s.link.dec with dphase := .payload, level := !s.link.dec.level, count := 3, bitIndex := 0, value := 0 } } }) ∧
    (s.link.dec.nonSync.toNat < 20 →
      ∃ t u, exec .b1 s = .next t ∧ execList (List.replicate 2 .satStep) s = .next u ∧
        t = { s with link := { s.link with
          sat := u.link.sat, adc := u.link.adc
          dec := { s.link.dec with level := !s.link.dec.level, count := 2, nonSync := s.link.dec.nonSync + 1 } } }) ∧
    (s.link.dec.nonSync.toNat < 20 →
      ∃ t u, exec .b0 s = .next t ∧ execList [.satStep] s = .next u ∧
        t = { s with link := { s.link with
          sat := u.link.sat, adc := u.link.adc, clk := !s.link.clk
          dec := { s.link.dec with level := !s.link.dec.level, count := 1, nonSync := s.link.dec.nonSync + 1 } } }) ∧
    (s.link.dec.nonSync.toNat = 20 → ∀ two : Bool,
      exec (if two then .b1 else .b0) s = exec (.runNonsync21 two) s ∧
      ∃ t u, exec (.runNonsync21 two) s = .next t ∧
        execList (List.replicate (if two then 2 else 1) .satStep) s = .next u ∧
        t.link.raw = none ∧ t.link.dec.dphase = .idle ∧ t.link.dec.nonSync = 21 ∧
        t = { s with
          link := { s.link with sat := u.link.sat, adc := u.link.adc, clk := t.link.clk, raw := none, dec := t.link.dec }
          ret := .decode (.noMessage .syncFailure) }) ∧
    (∃ t u, exec .runLong s = .next t ∧ execList (List.replicate 3 .satStep) s = .next u ∧
      t = { s with
        link := { s.link with
          sat := u.link.sat, adc := u.link.adc, clk := !s.link.clk, raw := none
          dec := { s.link.dec with dphase := .idle, count := 4 } }
        ret := .decode (.noMessage .searchRunTooLong) })

/-- R94, R95, column "while reading the payload", and R148 (the symbols as instructions: log entry 7). That the decoder's
registers keep their values after the tenth bit and after RUN.PAYLOAD3, the call being over, is the model's choice (log
entry 11). -/
def Obligations.SymbolsInThePayload : Prop :=
  ∀ s : State, s.par.lit = Literals.given → s.link.dec.dphase = .payload → s.link.dec.bitIndex.toNat ≤ 9 →
    (∀ b : Bool, ∃ t u, exec (if b then .b1 else .b0) s = .next t ∧
      execList (List.replicate (if b then 2 else 1) .satStep) s = .next u ∧
      t.link.sat = u.link.sat ∧ t.link.adc = u.link.adc ∧ t.link.line = s.link.line ∧
      t.link.dec.level = !s.link.dec.level ∧ t.link.dec.bitIndex.toNat = s.link.dec.bitIndex.toNat + 1 ∧
      (∀ j < 10, t.link.dec.value.getLsbD j =
        if j = s.link.dec.bitIndex.toNat ∧ b = true then true else s.link.dec.value.getLsbD j) ∧
      (s.link.dec.bitIndex.toNat < 9 →
        t.link.dec.dphase = .payload ∧ t.link.raw = s.link.raw ∧ t = { s with link := t.link }) ∧
      (s.link.dec.bitIndex.toNat = 9 →
        t.link.dec.dphase = .idle ∧ t.link.raw = some t.link.dec.value ∧
        t = { s with link := t.link, ret := .decode (.value t.link.dec.value) })) ∧
    exec .s3 s = exec .runPayload3 s ∧ exec .runLong s = exec .runPayload3 s ∧
    ∃ t u, exec .runPayload3 s = .next t ∧ execList (List.replicate 2 .satStep) s = .next u ∧
      t = { s with
        link := { s.link with
          sat := u.link.sat, adc := u.link.adc, raw := none
          dec := { s.link.dec with dphase := .idle, count := 3 } }
        ret := .decode (.noMessage .payloadRunTooLong) }

/-- The model's choice (log entry 7): between two calls a symbol is the run the satellite emits next (R91). -/
def Obligations.SymbolsBetweenCalls : Prop :=
  ∀ s : State, s.par.lit = Literals.given → s.link.dec.dphase = .idle → s.link.sat.k = 0 →
    (s.link.sat.r = 0 →
      exec .s3 s = execList (List.replicate 3 .satStep) s ∧
      ∃ t, exec .s3 s = .next t ∧ t.link.sat = { s.link.sat with r := 1, d := !s.link.sat.d } ∧
        t = { s with link := { s.link with sat := t.link.sat } }) ∧
    (∀ v, v = (if s.link.sat.r = 1 then portSample s.link.adc 0 else s.link.sat.sample) →
      1 ≤ s.link.sat.r.toNat → s.link.sat.r.toNat ≤ 10 →
      ∀ b, v.getLsbD (s.link.sat.r.toNat - 1) = b →
      exec (if b then .b1 else .b0) s = execList (List.replicate (if b then 2 else 1) .satStep) s ∧
      exec (if b then .b0 else .b1) s = .refused .symbolCannotStandHere ∧
      ∃ t, exec (if b then .b1 else .b0) s = .next t ∧
        t.link.sat = { r := if s.link.sat.r = 10 then 0 else s.link.sat.r + 1, k := 0, d := !s.link.sat.d, sample := v } ∧
        t = { s with link := { s.link with sat := t.link.sat, adc := t.link.adc } })

/-- The model's choice (log entry 7): where a symbol may not stand it is refused. -/
def Obligations.MisplacedSymbolsAreRefused : Prop :=
  ∀ s : State, s.par.lit = Literals.given →
    (s.link.dec.dphase = .settle → ∀ i ∈ [Instr.s3, .b1, .b0], exec i s = .refused .symbolCannotStandHere) ∧
    (s.link.dec.dphase = .settle → ∀ v, exec (.msg v) s = .refused .symbolCannotStandHere) ∧
    (s.link.dec.dphase = .idle → ¬(s.link.sat.r = 0 ∧ s.link.sat.k = 0) →
      exec .s3 s = .refused .symbolCannotStandHere ∧ ∀ v, exec (.msg v) s = .refused .symbolCannotStandHere) ∧
    (s.link.dec.dphase = .idle → s.link.sat.k ≠ 0 ∨ s.link.sat.r = 0 →
      exec .b1 s = .refused .symbolCannotStandHere ∧ exec .b0 s = .refused .symbolCannotStandHere) ∧
    (s.link.dec.dphase ≠ .payload → exec .runPayload3 s = .refused .symbolCannotStandHere) ∧
    (s.link.dec.dphase = .idle ∨ s.link.dec.dphase = .settle → exec .runLong s = .refused .symbolCannotStandHere) ∧
    (s.link.dec.dphase ≠ .search ∨ s.link.dec.nonSync.toNat ≠ 20 →
      ∀ two, exec (.runNonsync21 two) s = .refused .symbolCannotStandHere)

/-! ### Reset -/

/-- R51: `RESET(main)`. The five configuration registers keep no value and the decoder's transient registers have none
outside a call: nothing is said of `t.cfg` and of what `t.link.dec` holds beside `dphase`, nor of the model's own
`loaded` and `free`. -/
def Obligations.ResetMainValues : Prop :=
  ∀ s : State, ∃ t, exec (.reset .main) s = .next t ∧
    t = { s with
      link := { s.link with clk := false, dec := { t.link.dec with dphase := .idle }, raw := none, free := t.link.free }
      temp := 0
      sensorFault := false
      hist := []
      cooldown := 0
      runState := .off
      fanCount := 0
      fanEn := List.replicate s.par.fanAmount false
      stuck := List.replicate s.par.fanAmount 0
      stuckFan := none
      fault := .none
      cfg := t.cfg
      loaded := t.loaded
      cad := { ramp := 0, spike := 0, stuck := 0, full := 0 }
      phase := .idle
      heartbeat := false }

/-- R52: `RESET(sat)`. S keeps no defined value: nothing is said of `t.link.sat.sample`. -/
def Obligations.ResetSatelliteValues : Prop :=
  ∀ s : State, ∃ t, exec (.reset .sat) s = .next t ∧
    t = { s with link := { s.link with
      sat := { r := 0, k := 0, d := false, sample := t.link.sat.sample }, free := t.link.free } }

/-- R51, R52: what the machine holds right after reset, for every register the spec gives a value; and R7: the literals
have the values it gives. -/
def Obligations.ResetStateHoldsTheSpecValues : Prop :=
  let s := State.reset
  s.link.sat.r = 0 ∧ s.link.sat.k = 0 ∧ s.link.sat.d = false ∧
  s.link.clk = false ∧ s.link.dec.dphase = .idle ∧ s.link.raw = none ∧
  s.temp = 0 ∧ s.sensorFault = false ∧ s.hist = [] ∧ s.cooldown = 0 ∧
  s.runState = .off ∧ s.fanCount = 0 ∧ s.fanEn = List.replicate s.par.fanAmount false ∧
  s.stuck = List.replicate s.par.fanAmount 0 ∧ s.stuckFan = none ∧ s.fault = .none ∧
  s.cad = { ramp := 0, spike := 0, stuck := 0, full := 0 } ∧ s.phase = .idle ∧ s.heartbeat = false ∧
  s.par.lit = Literals.given ∧
  Literals.given = {
    syncLen := 3, bit1Len := 2, bit0Len := 1, payloadBits := 10, maxSearchRuns := 20, rawRef := 154, tempRef := 25,
    ratioNum := 205, ratioDen := 100, margin := 3, spikeWidthMax := 10, stuckPeriod := 20, spikePeriod := 1200 } ∧
  Literals.given.runsPerMsg = 11 ∧ Literals.given.histCap = 11 ∧ ticksPerSecond = 20

/-! ### The link -/

/-- R66: one link step: the clock event, the satellite's reaction, then the sample, inverted by the glitch bit. -/
def Obligations.LinkStepMovesTheSatelliteOnce : Prop :=
  ∀ (s : State) (g : Bool),
    ∃ u, exec .satStep { s with link := { s.link with clk := !s.link.clk } } = .next u ∧
      exec (.linkStep g) s = .next { u with ret := .level (u.link.sat.d ^^ g) }

/-- The model's choice (log entries 3, 4, 9 and 20): each link step of a call takes the next entry of `line`, and past its
end the line is fault-free. The clock inverts; a satellite reset, if any, comes first; the satellite then reacts to each
clock event that reaches it: one, none if it is missed, two if there is an extra one (R128). What is sampled is the level
it then drives, that level inverted (g = 1), or the forced level (R66, R110). An entry without a fault is `LINK.STEP`. -/
def Obligations.CallStepsAreLinkSteps : Prop :=
  (∀ (s : State) (x : LineInput) (rest : List LineInput), s.link.line = x :: rest →
    ∃ u, execList ((if x.resetSat then [.reset .sat] else []) ++
          List.replicate (match x.clock with | .clean => 1 | .missed => 0 | .extra => 2) .satStep)
        { s with link := { s.link with clk := !s.link.clk, line := rest } } = .next u ∧
      linkSteps s.par.lit 1 s.link = u.link ∧
      lineLevel s.par.lit s.link 0 =
        (match x.fault with | .clean => u.link.sat.d | .glitch => !u.link.sat.d | .forced b => b)) ∧
  (∀ (s : State) (g : Bool) (rest : List LineInput),
    s.link.line = { fault := if g then .glitch else .clean, clock := .clean, resetSat := false } :: rest →
    exec (.linkStep g) { s with link := { s.link with line := rest } } =
      .next { s with link := linkSteps s.par.lit 1 s.link, ret := .level (lineLevel s.par.lit s.link 0) }) ∧
  ∀ s : State, s.link.line = [] →
    exec (.linkStep false) s =
      .next { s with link := linkSteps s.par.lit 1 s.link, ret := .level (lineLevel s.par.lit s.link 0) }

/-- R143, R144: a run of `n` half-cycles, the first already sampled; the limits by the names of their literals. -/
def Obligations.LinkRunMeasuresOneRun : Prop :=
  ∀ (s : State) (lim : RunLimit) (limit : Nat), instanceOk s.par = true →
    limit = (match lim with | .search => s.par.lit.syncLen | .payload => s.par.lit.bit1Len) →
    (∀ n, 1 ≤ n → n ≤ limit →
      s.link.shows s.par.lit (List.replicate (n - 1) s.link.dec.level ++ [!s.link.dec.level]) →
      exec (.linkRun lim) s = .next { s with
        link := { linkSteps s.par.lit n s.link with
          dec := { s.link.dec with level := !s.link.dec.level, count := BitVec.ofNat 3 n } }
        ret := .run (.length n) }) ∧
    (s.link.shows s.par.lit (List.replicate limit s.link.dec.level) →
      exec (.linkRun lim) s = .next { s with
        link := { linkSteps s.par.lit limit s.link with dec := { s.link.dec with count := BitVec.ofNat 3 (limit + 1) } }
        ret := .run .tooLong })

/-- R146, R147: at most 20 runs of length 1 or 2, then what ends the search. The first half-cycle of the first run has
been sampled. -/
def Obligations.LinkSyncSearchesTheMarker : Prop :=
  ∀ (s : State) (runs : List Nat), s.par.lit = Literals.given → (∀ n ∈ runs, n = 1 ∨ n = 2) →
    let before := !s.link.dec.level
    (runs.length ≤ 20 → s.link.shows s.par.lit (levelsOf before (runs ++ [3, 1])).tail →
      exec .linkSync s = .next { s with
        link := { linkSteps s.par.lit (runs.sum + 3) s.link with
          dec := { s.link.dec with
            level := s.link.dec.level ^^ decide (runs.length % 2 = 0), count := 3
            nonSync := BitVec.ofNat 5 runs.length } }
        ret := .sync .synced }) ∧
    (runs.length = 21 → s.link.shows s.par.lit (levelsOf before (runs ++ [1])).tail →
      ∃ t, exec .linkSync s = .next t ∧ t.link.dec.nonSync = 21 ∧
        t = { s with
          link := { linkSteps s.par.lit runs.sum s.link with
            dec := { s.link.dec with level := before, count := t.link.dec.count, nonSync := 21 } }
          ret := .sync (.noMessage .syncFailure) }) ∧
    (runs.length ≤ 20 → s.link.shows s.par.lit (levelsOf before (runs ++ [4])).tail →
      ∃ t, exec .linkSync s = .next t ∧
        t = { s with
          link := { linkSteps s.par.lit (runs.sum + 3) s.link with
            dec := { s.link.dec with
              level := t.link.dec.level, count := 4, nonSync := BitVec.ofNat 5 runs.length } }
          ret := .sync (.noMessage .searchRunTooLong) })

/-- R148, R94: ten data runs give their value; a longer run among them aborts. The first half-cycle of the first run has
been sampled. -/
def Obligations.LinkPayloadReadsTenRuns : Prop :=
  ∀ (s : State) (v : Sample), s.par.lit = Literals.given →
    let before := !s.link.dec.level
    (s.link.shows s.par.lit (levelsOf before ((runsOf s.par.lit v).tail ++ [1])).tail →
      ∃ t, exec .linkPayload s = .next t ∧
        t = { s with
          link := { linkSteps s.par.lit (10 + popcount v) s.link with
            dec := { s.link.dec with count := t.link.dec.count, bitIndex := 10, value := v } }
          ret := .decode (.value v) }) ∧
    (∀ j < 10, s.link.shows s.par.lit (levelsOf before ((runsOf s.par.lit v).tail.take j ++ [3])).tail →
      ∃ t, exec .linkPayload s = .next t ∧ t.link.dec.bitIndex.toNat = j ∧
        t = { s with
          link := { linkSteps s.par.lit (((runsOf s.par.lit v).tail.take j).sum + 2) s.link with dec := t.link.dec }
          ret := .decode (.noMessage .payloadRunTooLong) })

/-- R140, R141, R153: a whole call on any line, by the levels the line shows it, as long as its clock line is sound. Every
shown level is sampled once and none after them. -/
def Obligations.DecodeCallJudgesTheShownRuns : Prop :=
  ∀ (s : State) (before : Bool) (runs : List Nat) (v : Sample), s.par.lit = Literals.given →
    (∀ n ∈ runs, n = 1 ∨ n = 2) →
    (∀ ls, ls = levelsOf before (runs ++ runsOf s.par.lit v ++ [1]) → runs.length ≤ 20 →
      s.link.shows s.par.lit ls → s.link.clockSound ls.length →
      ∃ t, exec .linkDecode s = .next t ∧ t.link.dec.dphase = .idle ∧
        t = { s with
          link := { linkSteps s.par.lit ls.length s.link with dec := t.link.dec, raw := some v }
          ret := .decode (.value v) }) ∧
    (∀ ls, ls = levelsOf before (runs ++ [4]) → runs.length ≤ 20 →
      s.link.shows s.par.lit ls → s.link.clockSound ls.length →
      ∃ t, exec .linkDecode s = .next t ∧ t.link.dec.dphase = .idle ∧
        t = { s with
          link := { linkSteps s.par.lit ls.length s.link with dec := t.link.dec, raw := none }
          ret := .decode (.noMessage .searchRunTooLong) }) ∧
    (∀ ls, ls = levelsOf before (runs ++ [1]) → runs.length = 21 →
      s.link.shows s.par.lit ls → s.link.clockSound ls.length →
      ∃ t, exec .linkDecode s = .next t ∧ t.link.dec.dphase = .idle ∧
        t = { s with
          link := { linkSteps s.par.lit ls.length s.link with dec := t.link.dec, raw := none }
          ret := .decode (.noMessage .syncFailure) }) ∧
    (∀ ls j, ls = levelsOf before (runs ++ (runsOf s.par.lit v).take j ++ [3]) → 1 ≤ j → j ≤ 10 → runs.length ≤ 20 →
      s.link.shows s.par.lit ls → s.link.clockSound ls.length →
      ∃ t, exec .linkDecode s = .next t ∧ t.link.dec.dphase = .idle ∧
        t = { s with
          link := { linkSteps s.par.lit ls.length s.link with dec := t.link.dec, raw := none }
          ret := .decode (.noMessage .payloadRunTooLong) })

/-- R155, R156: a line that never changes, and a line that inverts at every step; the clock line sound. -/
def Obligations.DeadAndAlternatingLines : Prop :=
  ∀ (s : State) (b : Bool), s.par.lit = Literals.given →
    (s.link.shows s.par.lit (List.replicate 4 b) → s.link.clockSound 4 →
      ∃ t, exec .linkDecode s = .next t ∧ t.link.dec.dphase = .idle ∧
        t = { s with
          link := { linkSteps s.par.lit 4 s.link with dec := t.link.dec, raw := none }
          ret := .decode (.noMessage .searchRunTooLong) }) ∧
    (s.link.shows s.par.lit ((List.range 22).map (fun i => b ^^ decide (i % 2 = 1))) → s.link.clockSound 22 →
      ∃ t, exec .linkDecode s = .next t ∧ t.link.dec.dphase = .idle ∧
        t = { s with
          link := { linkSteps s.par.lit 22 s.link with dec := t.link.dec, raw := none }
          ret := .decode (.noMessage .syncFailure) })

/-- R154, R140, R150: on every line the call returns after at most 84 link steps, IDLE, and `raw` is its
result. Where the clock line was disturbed that result is any RawSample: a free value (U34, log entry 20). -/
def Obligations.DecodeCallAlwaysReturns : Prop :=
  ∀ s : State, s.par.lit = Literals.given → ∃ t n, exec .linkDecode s = .next t ∧ n ≤ 84 ∧
    t = { s with
      link := { linkSteps s.par.lit n s.link with dec := t.link.dec, raw := t.link.raw, free := t.link.free }
      ret := t.ret } ∧
    t.link.dec.dphase = .idle ∧
    ((∃ v, t.ret = .decode (.value v) ∧ t.link.raw = some v) ∨
      ∃ c, t.ret = .decode (.noMessage c) ∧ t.link.raw = none)

/-- R157, R149: on a fault-free line, wherever the satellite stands, the call returns the sample latched at the start of
run 1 after the first marker it measures whole, and leaves the satellite one half-cycle into the next marker. -/
def Obligations.RoundTripFromEveryPosition : Prop :=
  ∀ (s : State) (m : Nat), s.par.lit = Literals.given →
    s.link.line = List.replicate m cleanStep →
    s.link.sat.r.toNat ≤ 10 → s.link.sat.k.toNat < runLen s.par.lit s.link.sat.r s.link.sat.sample →
    ∃ t v, exec .linkDecode s = .next t ∧
      v = portSample s.link.adc
        (if (s.link.sat.r = 0 ∧ s.link.sat.k ≠ 0) ∨ (s.link.sat.r = 1 ∧ s.link.sat.k = 0) then 1 else 0) ∧
      t.link.raw = some v ∧ t.ret = .decode (.value v) ∧ t.link.dec.dphase = .idle ∧
      t.link.sat.r = 0 ∧ t.link.sat.k = 1 ∧ t.link.sat.sample = v ∧
      t = { s with link := t.link, ret := t.ret }

/-- R158: how many link steps a fault-free call makes, and how many non-marker runs it counts; that `nonSync` still holds
that count after the call is the model's choice (log entry 11). -/
def Obligations.StepsOfAFaultFreeCall : Prop :=
  ∀ (s : State) (m : Nat), s.par.lit = Literals.given →
    s.link.line = List.replicate m cleanStep →
    s.link.sat.r.toNat ≤ 10 → s.link.sat.k.toNat < runLen s.par.lit s.link.sat.r s.link.sat.sample →
    ∃ t v, exec .linkDecode s = .next t ∧ t.link.raw = some v ∧
      14 ≤ restOfMessage s.par.lit s.link + 14 + popcount v ∧ restOfMessage s.par.lit s.link + 14 + popcount v ≤ 46 ∧
      t.link.line = List.replicate (m - (restOfMessage s.par.lit s.link + 14 + popcount v)) cleanStep ∧
      t.link.dec.nonSync.toNat ≤ 11

/-- R160, R152, R291: whatever the line did to a call, the next call, if fault-free, returns the value the satellite
latched for it. -/
def Obligations.NextCallRecoversFromAnyLineError : Prop :=
  ∀ s t : State, s.par.lit = Literals.given →
    s.link.sat.r.toNat ≤ 10 → s.link.sat.k.toNat < runLen s.par.lit s.link.sat.r s.link.sat.sample →
    exec .linkDecode s = .next t →
    ∃ u, exec .linkDecode { t with link := { t.link with line := [] } } = .next u ∧
      u.link.raw = some u.link.sat.sample ∧ u.link.sat.r = 0 ∧ u.link.sat.k = 1

/-! ### The temperature filter -/

/-- R170: the conversion: the default expression, and what every valid instance satisfies. That every valid instance lies
strictly within one degree of the line is the model's choice (log entry 2): R170 says only "up to integer rounding". -/
def Obligations.ConvertRawToCelsius : Prop :=
  ∀ (s : State) (v : Sample), instanceOk s.par = true → ∃ c : Temp,
    exec (.tfConvert v) s = .next { s with ret := .temp c } ∧
    (s.par.convert = .affine →
      c.toInt = s.par.lit.tempRef +
        (((v.toNat : Int) - s.par.lit.rawRef) * s.par.lit.ratioDen).tdiv s.par.lit.ratioNum) ∧
    (s.par.convert = .affine → s.par.lit = Literals.given → c.toInt = 25 + (((v.toNat : Int) - 154) * 100).tdiv 205) ∧
    (v.toNat = s.par.lit.rawRef → c.toInt = s.par.lit.tempRef) ∧
    (s.par.lit.ratioNum * (c.toInt - s.par.lit.tempRef) - s.par.lit.ratioDen * ((v.toNat : Int) - s.par.lit.rawRef)).natAbs
      < s.par.lit.ratioNum ∧
    ∀ (w : Sample) (c' : Temp), v.toNat ≤ w.toNat →
      exec (.tfConvert w) s = .next { s with ret := .temp c' } → c.toInt ≤ c'.toInt

/-- R172, R174, R175: one filter step; the margin, 3 as given, by its name. -/
def Obligations.FilterStep : Prop :=
  ∀ s : State,
    exec (.tfUpdate none) s = .next { s with sensorFault := true, temp := 0, hist := [] } ∧
    ∀ (v : Sample) (inst : Temp), exec (.tfConvert v) s = .next { s with ret := .temp inst } →
      ∃ t, exec (.tfUpdate (some v)) s = .next t ∧
        t = { s with sensorFault := false, temp := t.temp } ∧
        (s.temp = 0 → t.temp = inst) ∧
        (s.temp ≠ 0 →
          (s.temp.toInt + s.par.lit.margin < inst.toInt → t.temp.toInt = s.temp.toInt + 1) ∧
          (inst.toInt < s.temp.toInt - s.par.lit.margin → t.temp.toInt = s.temp.toInt - 1) ∧
          ((inst.toInt - s.temp.toInt).natAbs ≤ s.par.lit.margin → t.temp = s.temp))

/-- R178: while every reading converts to the same value, T stops MARGIN (3 as given) short of it, on the side it came
from, unless it passes through 0. -/
def Obligations.FilterSettlesThreeShort : Prop :=
  ∀ (s : State) (readings : List Sample) (inst stop : Int),
    (∀ v ∈ readings, (convert s.par v).toInt = inst) →
    stop = max (inst - s.par.lit.margin) (min s.temp.toInt (inst + s.par.lit.margin)) →
    0 < s.temp.toInt * stop → (inst - s.temp.toInt).natAbs - s.par.lit.margin ≤ readings.length →
    ∃ t, execList (readings.map (fun v => .tfUpdate (some v))) s = .next t ∧ t.temp.toInt = stop ∧
      t = { s with temp := t.temp, sensorFault := t.sensorFault }

/-- R179 with the default CONVERT: no operation takes T out of -50 .. 448. -/
def Obligations.TemperatureStaysInRange : Prop :=
  ∀ (i : Instr) (s t : State), s.par.lit = Literals.given → s.par.convert = .affine →
    -50 ≤ s.temp.toInt → s.temp.toInt ≤ 448 →
    exec i s = .next t → t.par = s.par ∧ -50 ≤ t.temp.toInt ∧ t.temp.toInt ≤ 448

/-! ### The spike detector -/

/-- R186: the history is emptied and nothing else changes. -/
def Obligations.SpikeHistoryClear : Prop :=
  ∀ s : State, exec .sdClear s = .next { s with hist := [] }

/-- R185, R187, R188, R189, R191: the cadence, then the cooldown, then the sensor fault, then the sample. -/
def Obligations.SpikeDetectorTick : Prop :=
  ∀ s : State, s.cfg.width.toNat ≤ s.par.lit.spikeWidthMax →
    (s.cad.spike.toNat < s.par.lit.spikePeriod → exec .sdTick s = .next s) ∧
    (s.par.lit.spikePeriod ≤ s.cad.spike.toNat → 0 < s.cooldown.toNat →
      exec .sdTick s = .next { s with cad := { s.cad with spike := 0 }, cooldown := s.cooldown - 1 }) ∧
    (s.par.lit.spikePeriod ≤ s.cad.spike.toNat → s.cooldown.toNat = 0 → s.sensorFault = true →
      exec .sdTick s = .next { s with cad := { s.cad with spike := 0 } }) ∧
    (s.par.lit.spikePeriod ≤ s.cad.spike.toNat → s.cooldown.toNat = 0 → s.sensorFault = false →
      ∀ h, h = (s.temp :: s.hist).take (s.cfg.width.toNat + 1) →
      ((∃ ref, h[s.cfg.width.toNat]? = some ref ∧ ref.toInt < s.temp.toInt ∧
          (s.cfg.height.toNat : Int) ≤ s.temp.toInt - ref.toInt) →
        exec .sdTick s = .next { s with
          cad := { s.cad with spike := 0 }, cooldown := s.cfg.reset, hist := [] }) ∧
      ((∀ ref, h[s.cfg.width.toNat]? = some ref →
          s.temp.toInt ≤ ref.toInt ∨ s.temp.toInt - ref.toInt < (s.cfg.height.toNat : Int)) →
        exec .sdTick s = .next { s with cad := { s.cad with spike := 0 }, hist := h }))

/-- R190: a cooldown of N freezes the history for N due cadence ticks, each taking it down by one. -/
def Obligations.CooldownFreezesTheHistory : Prop :=
  ∀ (s : State) (n : Nat), s.par.lit.spikePeriod ≤ 65535 → n ≤ s.cooldown.toNat →
    ∃ t, execList (List.replicate n (List.replicate s.par.lit.spikePeriod Instr.timerTick ++ [.sdTick])).flatten s = .next t ∧
      t.cooldown.toNat = s.cooldown.toNat - n ∧ t = { s with cad := t.cad, cooldown := t.cooldown }

/-! ### The thermostat and the ramp -/

/-- R204, R200 to R203: the transition table of RunState. -/
def Obligations.RunStateTransitions : Prop :=
  ∀ s : State, exec .frState s = .next { s with runState :=
    if s.sensorFault = true then .off
    else if 0 < s.cooldown.toNat then .spike
    else if s.temp.toInt ≤ (s.cfg.off.toNat : Int) then .off
    else if (s.cfg.on.toNat : Int) ≤ s.temp.toInt then .on
    else s.runState }

/-- R205, R207: one fan toward the target on the ramp cadence; the settle counter restarts exactly when the count
changes. -/
def Obligations.RampMovesOneFan : Prop :=
  ∀ s : State, instanceOk s.par = true → s.fanCount.toNat ≤ s.par.fanAmount →
    (s.cad.ramp.toNat < s.par.rampPeriod → exec .frRamp s = .next s) ∧
    (s.par.rampPeriod ≤ s.cad.ramp.toNat →
      (s.runState = .off → 0 < s.fanCount.toNat →
        exec .frRamp s = .next { s with
          fanCount := s.fanCount - 1, cad := { s.cad with ramp := 0, full := 0 } }) ∧
      (s.runState = .off → s.fanCount.toNat = 0 →
        exec .frRamp s = .next { s with cad := { s.cad with ramp := 0 } }) ∧
      (s.runState ≠ .off → s.fanCount.toNat < s.par.fanAmount →
        exec .frRamp s = .next { s with
          fanCount := BitVec.ofNat 8 (s.fanCount.toNat + 1), cad := { s.cad with ramp := 0, full := 0 } }) ∧
      (s.runState ≠ .off → s.fanCount.toNat = s.par.fanAmount →
        exec .frRamp s = .next { s with cad := { s.cad with ramp := 0 } }))

/-- R208, R70: priority position j is driven exactly when j < fanCount, and exactly fanCount outputs are 1. -/
def Obligations.OutputsFollowTheCount : Prop :=
  ∀ s : State, instanceOk s.par = true → s.fanCount.toNat ≤ s.par.fanAmount →
    ∃ t, exec .frOut s = .next t ∧ t = { s with fanEn := t.fanEn } ∧
      t.fanEn.length = s.par.fanAmount ∧
      (∀ j c : Nat, s.par.fanOrder[j]? = some c → t.fanEn[c]? = some (decide (j < s.fanCount.toNat))) ∧
      t.fanEn.count true = s.fanCount.toNat

/-- R327: a control tick moves the count by at most one and changes at most one output. -/
def Obligations.InrushBound : Prop :=
  ∀ s t : State, instanceOk s.par = true → s.fanCount.toNat ≤ s.par.fanAmount →
    exec .frOut s = .next s → (∀ l ∈ s.async, Async.resetMain ∉ l) → exec .ctrlTick s = .next t →
    t.fanCount.toNat ≤ s.fanCount.toNat + 1 ∧ s.fanCount.toNat ≤ t.fanCount.toNat + 1 ∧
    ∀ c d : Nat, s.fanEn[c]? ≠ t.fanEn[c]? → s.fanEn[d]? ≠ t.fanEn[d]? → c = d

/-! ### The tachometer monitor and the fault code -/

/-- R226, R227: the gate. -/
def Obligations.MeasurementGate : Prop :=
  ∀ s : State, ∃ b : Bool, exec .tmGate s = .next { s with ret := .gate b } ∧
    (b = true ↔ s.fanCount.toNat = s.par.fanAmount ∧ s.par.tachSettle ≤ s.cad.full.toNat)

/-- R228, R229, R230, R232: one measurement cycle. Sample 0 is the reference; a fan whose line differs from it in some
re-sample drawn is cleared, another counts if the cycle is count eligible. `m` re-samples are drawn: the window stops at
the first after which every fan has shown a transition, else at TACH_SAMPLES. -/
def Obligations.MeasurementCycle : Prop :=
  ∀ s : State, instanceOk s.par = true →
    ∃ t m, exec .tmMeasure s = .next t ∧
      t = { s with
        cad := { s.cad with stuck := if s.par.lit.stuckPeriod ≤ s.cad.stuck.toNat then 0 else s.cad.stuck }
        tach := t.tach
        stuck := t.stuck } ∧
      t.stuck.length = s.par.fanAmount ∧
      (∀ i, portSample t.tach i = portSample s.tach (i + (1 + m))) ∧
      t.tach.draws = s.tach.draws.drop (1 + m) ∧
      let toggled := fun f n => ∃ i, 1 ≤ i ∧ i ≤ n ∧
        (portSample s.tach i).getLsbD f ≠ (portSample s.tach 0).getLsbD f
      1 ≤ m ∧ m ≤ s.par.tachSamples ∧
      (∀ n, 1 ≤ n → n < m → ∃ f < s.par.fanAmount, ¬toggled f n) ∧
      (m < s.par.tachSamples → ∀ f < s.par.fanAmount, toggled f m) ∧
      ∀ f < s.par.fanAmount,
        (toggled f m → t.stuck.getD f 0 = 0) ∧
        (¬toggled f m → s.par.lit.stuckPeriod ≤ s.cad.stuck.toNat →
          (t.stuck.getD f 0).toNat = min ((s.stuck.getD f 0).toNat + 1) s.par.maxStuck) ∧
        (¬toggled f m → s.cad.stuck.toNat < s.par.lit.stuckPeriod → t.stuck.getD f 0 = s.stuck.getD f 0)

/-- R235, R37: the report is the least saturated fan. -/
def Obligations.ReportTheLeastStuckFan : Prop :=
  ∀ s : State, instanceOk s.par = true →
    ∃ r, exec .tmReport s = .next { s with stuckFan := r } ∧
      (∀ f : Byte, r = some f ↔
        f.toNat < s.par.fanAmount ∧ (s.stuck.getD f.toNat 0).toNat = s.par.maxStuck ∧
          ∀ g < f.toNat, (s.stuck.getD g 0).toNat ≠ s.par.maxStuck) ∧
      (r = none ↔ ∀ g < s.par.fanAmount, (s.stuck.getD g 0).toNat ≠ s.par.maxStuck)

/-- R236: a fan whose line never toggles saturates after MAX_STUCK_COUNT count-eligible cycles and is then reported. -/
def Obligations.ConstantLineIsReportedStuck : Prop :=
  ∀ (s : State) (f n : Nat), instanceOk s.par = true → f < s.par.fanAmount → s.stuck.getD f 0 = 0 →
    s.par.lit.stuckPeriod ≤ 65535 →
    (∀ v ∈ s.tach.draws, v.getLsbD f = s.tach.level.getLsbD f) →
    ∃ t, execList (List.replicate n (List.replicate s.par.lit.stuckPeriod Instr.timerTick ++ [.tmMeasure])).flatten s =
        .next t ∧
      (t.stuck.getD f 0).toNat = min n s.par.maxStuck ∧
      (s.par.maxStuck ≤ n →
        ∃ u g, exec .tmReport t = .next u ∧ u.stuckFan = some g ∧ g.toNat ≤ f)

/-- R245, R246, R247: SENSOR, then the stuck fan, then NONE. -/
def Obligations.FaultPriority : Prop :=
  ∀ s : State, exec .faEval s = .next { s with fault :=
    if s.sensorFault = true then .sensor else match s.stuckFan with | some f => .fan f | none => .none }

/-- R248: no operation reads `fault`: with another value there, each stops or goes on alike, and all else it leaves is
the same. -/
def Obligations.FaultIsReadByNoOperation : Prop :=
  ∀ (i : Instr) (s : State) (f : FaultCode),
    (∀ t, exec i s = .next t → ∃ f', exec i { s with fault := f } = .next { t with fault := f' }) ∧
    (∀ r, exec i s = .refused r → exec i { s with fault := f } = .refused r)

/-- R283, R225: the tachometer side (its inputs, counters, report) and the fault code never change anything else. -/
def Obligations.StuckFansNeverReachTheThermostat : Prop :=
  ∀ (i : Instr) (s t : State) (tach : Port TachVec) (stuck : List Byte) (stuckFan : Option Byte) (fault : FaultCode),
    exec i s = .next t →
    ∃ tach' stuck' stuckFan' fault',
      exec i { s with tach := tach, stuck := stuck, stuckFan := stuckFan, fault := fault } =
        .next { t with tach := tach', stuck := stuck', stuckFan := stuckFan', fault := fault' }

/-! ### The timer and the control tick -/

/-- R255, R257, R78: each timer tick counts once on all four counters, saturating, and does nothing else; a tick before
a decode call has the effect of one after it. -/
def Obligations.TimerTicksOnlyCount : Prop :=
  (∀ (s : State) (n : Nat),
    execList (List.replicate n .timerTick) s = .next { s with cad := {
      ramp := BitVec.ofNat 16 (min (s.cad.ramp.toNat + n) 65535)
      spike := BitVec.ofNat 16 (min (s.cad.spike.toNat + n) 65535)
      stuck := BitVec.ofNat 16 (min (s.cad.stuck.toNat + n) 65535)
      full := BitVec.ofNat 16 (min (s.cad.full.toNat + n) 65535) } }) ∧
  ∀ s : State, execList [.timerTick, .linkDecode] s = execList [.linkDecode, .timerTick] s

/-- R250, R253, R104: the control tick is its phases in order, here with nothing arriving between them. -/
def Obligations.ControlTickRunsItsPhases : Prop :=
  ∀ s : State, s.phase = .idle → s.loaded = true → s.async = [] →
    ∃ s1 s2 s3 s4 s5 s6 s7 s8 s9 s10,
      exec .linkDecode { s with phase := .sense } = .next s1 ∧
      exec (.tfUpdate s1.link.raw) s1 = .next s2 ∧
      exec .sdTick { s2 with phase := .spike } = .next s3 ∧
      exec .frState { s3 with phase := .state } = .next s4 ∧
      exec .frRamp { s4 with phase := .ramp } = .next s5 ∧
      exec .frOut s5 = .next s6 ∧
      exec .tmGate { s6 with phase := .tach } = .next s7 ∧
      (s7.ret = .gate true → exec .tmMeasure s7 = .next s8) ∧ (s7.ret = .gate false → s8 = s7) ∧
      (s7.ret = .gate true ∨ s7.ret = .gate false) ∧
      exec .tmReport s8 = .next s9 ∧
      exec .faEval { s9 with phase := .fault } = .next s10 ∧
      exec .ctrlTick s = .next { s10 with heartbeat := !s.heartbeat, phase := .idle, ret := s.ret }

/-- R251: any number of timer ticks at each boundary between two phases (the boundaries as a list: log entry 8). -/
def Obligations.TimerTicksBetweenPhases : Prop :=
  ∀ (s : State) (n1 n2 n3 n4 n5 : Nat), s.phase = .idle → s.loaded = true →
    s.async = [n1, n2, n3, n4, n5].map (fun n => List.replicate n .timerTick) →
    ∃ a1 a2 a3 a4 a5 b1 b2 b3 b4 b5 c t,
      execList [.linkDecode] { s with phase := .sense, async := [] } = .next c ∧
      exec (.tfUpdate c.link.raw) c = .next a1 ∧
      execList (List.replicate n1 .timerTick) a1 = .next b1 ∧
      exec .sdTick b1 = .next a2 ∧
      execList (List.replicate n2 .timerTick) a2 = .next b2 ∧
      exec .frState b2 = .next a3 ∧
      execList (List.replicate n3 .timerTick) a3 = .next b3 ∧
      execList [.frRamp, .frOut] b3 = .next a4 ∧
      execList (List.replicate n4 .timerTick) a4 = .next b4 ∧
      execList (if b4.fanCount.toNat = b4.par.fanAmount ∧ b4.par.tachSettle ≤ b4.cad.full.toNat
        then [.tmMeasure, .tmReport] else [.tmReport]) b4 = .next a5 ∧
      execList (List.replicate n5 .timerTick) a5 = .next b5 ∧
      exec .faEval b5 = .next t ∧
      exec .ctrlTick s = .next { t with heartbeat := !s.heartbeat, phase := .idle, ret := s.ret }

/-- R79, R80, R254, R315, R301: what is refused while a control tick is under way, and a control tick without a loaded
configuration (`loaded`: log entry 12); the display's reads between control ticks. -/
def Obligations.OnlyBetweenControlTicks : Prop :=
  ∀ s : State,
    (s.phase ≠ .idle →
      exec .ctrlTick s = .refused .tickInProgress ∧
      (∀ index value, exec (.cfgWrite index value) s = .refused .onlyBetweenTicks) ∧
      exec .cfgLoad s = .refused .onlyBetweenTicks ∧ displayRead s = .error .onlyBetweenTicks) ∧
    (s.phase = .idle →
      displayRead s = .ok { temp := s.temp, runState := s.runState, fault := s.fault, heartbeat := s.heartbeat }) ∧
    (s.phase = .idle → s.loaded = false → exec .ctrlTick s = .refused .configNotLoaded) ∧
    (∀ t, exec (.reset .main) s = .next t → exec .ctrlTick t = .refused .configNotLoaded) ∧
    ∀ t, exec .cfgLoad s = .next t → ∃ u, exec .ctrlTick t = .next u

/-- The model's choice (log entry 8): a `RESET(main)` at any of the five interior boundaries ends the control tick. What
is left is what `RESET(main)` leaves (R51) of the state that the phases before that boundary, and what arrived between
them, have left; what arrives after it at the same boundary still arrives, and no further phase runs (R318). -/
def Obligations.ResetBetweenPhasesEndsTheTick : Prop :=
  ∀ (s : State) (before : List (List Async)) (pre post : List Async) (rest : List (List Async)),
    s.phase = .idle → s.loaded = true → before.length ≤ 4 →
    (∀ l ∈ pre :: before, Async.resetMain ∉ l) →
    s.async = before ++ (pre ++ .resetMain :: post) :: rest →
    ∃ u t v, phasesAlone (boundaryPhases.zip (before ++ [pre])) s = .next u ∧
      exec (.reset .main) u = .next t ∧
      execList (post.map Async.instr) t = .next v ∧
      exec .ctrlTick s = .next { v with async := rest, ret := s.ret }

/-- R50 (4), (5), (8), R37, R209: what holds at the end of every control tick, whatever arrived during it. -/
def Obligations.EndOfEveryControlTick : Prop :=
  ∀ s t : State, instanceOk s.par = true → exec .ctrlTick s = .next t →
    t.phase = .idle ∧ t.link.dec.dphase = .idle ∧
    (t.fault = .sensor ↔ t.sensorFault = true) ∧
    (t.sensorFault = true → t.temp = 0 ∧ t.hist = [] ∧ t.runState = .off) ∧
    exec .frOut t = .next t ∧ exec .tmReport t = .next t ∧ exec .faEval t = .next t

/-- R282, R155: one control tick on a dead line; the clock line sound. -/
def Obligations.SensorFaultTick : Prop :=
  ∀ (s : State) (b : Bool), s.par.lit = Literals.given → instanceOk s.par = true → s.fanCount.toNat ≤ s.par.fanAmount →
    s.phase = .idle → s.loaded = true → s.async = [] → s.link.shows s.par.lit (List.replicate 4 b) →
    s.link.clockSound 4 →
    ∃ t, exec .ctrlTick s = .next t ∧
      t.link.raw = none ∧ t.sensorFault = true ∧ t.temp = 0 ∧ t.hist = [] ∧ t.runState = .off ∧ t.fault = .sensor ∧
      t.fanCount.toNat = (if s.par.rampPeriod ≤ s.cad.ramp.toNat then s.fanCount.toNat - 1 else s.fanCount.toNat) ∧
      t.cooldown.toNat = (if 1200 ≤ s.cad.spike.toNat then s.cooldown.toNat - 1 else s.cooldown.toNat) ∧
      t.cfg = s.cfg ∧ t.bytes = s.bytes ∧ t.heartbeat = !s.heartbeat ∧
      t.link.sat = (linkSteps s.par.lit 4 s.link).sat

/-- R316: the first control tick after both resets and a load of erased bytes, on a fault-free line. -/
def Obligations.FirstControlTickAfterReset : Prop :=
  ∀ (s : State) (v : Sample) (inst : Temp), s.par.lit = Literals.given → instanceOk s.par = true →
    (∀ j, cfgByteRead s.stored s.bytes j = 0xFF) → s.link.line = [] → s.async = [] →
    portSample s.link.adc 0 = v → inst = convert s.par v →
    ∃ t, execList [.reset .main, .reset .sat, .cfgLoad, .ctrlTick] s = .next t ∧
      t.cfg = s.par.dflt ∧ t.link.raw = some v ∧ t.temp = inst ∧ t.sensorFault = false ∧ t.hist = [] ∧
      t.runState = (if (s.par.dflt.on.toNat : Int) ≤ inst.toInt then .on else .off) ∧
      t.fanCount = 0 ∧ t.fanEn = List.replicate s.par.fanAmount false ∧ t.fault = .none ∧ t.heartbeat = true

/-! ### The configuration -/

/-- R261, R262, R263: a write in its edit range between control ticks: the register, the clamped neighbour, and the
persisted bytes of the registers written; every other register and byte keeps its value. -/
def Obligations.ConfigWriteClampsAndPersists : Prop :=
  ∀ (s : State) (index : BitVec 3) (value : Byte) (i : Fin 5),
    instanceOk s.par = true → s.phase = .idle → index.toNat = i.val →
    (getField s.par.lo i).toNat ≤ value.toNat → value.toNat ≤ (getField s.par.hi i).toNat →
    ∃ t, exec (.cfgWrite index value) s = .next t ∧ t = { s with cfg := t.cfg, bytes := t.bytes } ∧
      getField t.cfg i = value ∧
      (i = 0 → s.cfg.on.toNat ≤ value.toNat →
        t.cfg.on.toNat = value.toNat + 1 ∧ t.cfg.on.toNat ≤ s.par.hi.on.toNat ∧ cfgByteRead t.stored t.bytes 1 = t.cfg.on) ∧
      (i = 1 → value.toNat ≤ s.cfg.off.toNat →
        t.cfg.off.toNat + 1 = value.toNat ∧ s.par.lo.off.toNat ≤ t.cfg.off.toNat ∧
          cfgByteRead t.stored t.bytes 0 = t.cfg.off) ∧
      cfgByteRead t.stored t.bytes i = value ∧
      ∀ j : Fin 5, j ≠ i → ¬(i = 0 ∧ j = 1 ∧ s.cfg.on.toNat ≤ value.toNat) →
        ¬(i = 1 ∧ j = 0 ∧ value.toNat ≤ s.cfg.off.toNat) →
        getField t.cfg j = getField s.cfg j ∧ cfgByteRead t.stored t.bytes j = cfgByteRead s.stored s.bytes j

/-- R261, R264: what `CFG.WRITE` refuses between control ticks: no such field, or a value outside the edit range, 0xFF
included. -/
def Obligations.ConfigWriteRefusals : Prop :=
  ∀ s : State, s.phase = .idle →
    (∀ index value, 4 < index.toNat → exec (.cfgWrite index value) s = .refused .noSuchField) ∧
    ∀ (index : BitVec 3) (value : Byte) (i : Fin 5), index.toNat = i.val →
      value.toNat < (getField s.par.lo i).toNat ∨ (getField s.par.hi i).toNat < value.toNat ∨ value = 0xFF →
      exec (.cfgWrite index value) s = .refused .outsideEditRange

/-- R265: the five registers from the five bytes, a default for each erased one; refused when the thresholds cross or a
register is outside its range. Nothing is said of the model's own `loaded`. -/
def Obligations.ConfigLoadAppliesDefaults : Prop :=
  ∀ (s : State) (c : Thresholds), s.phase = .idle →
    (∀ j : Fin 5, getField c j =
      if cfgByteRead s.stored s.bytes j = 0xFF then getField s.par.dflt j else cfgByteRead s.stored s.bytes j) →
    (c.on.toNat ≤ c.off.toNat → exec .cfgLoad s = .refused .loadedThresholdsCross) ∧
    (c.off.toNat < c.on.toNat →
      (∃ j, (getField c j).toNat < (getField s.par.lo j).toNat ∨ (getField s.par.hi j).toNat < (getField c j).toNat) →
      exec .cfgLoad s = .refused .loadedOutsideRange) ∧
    (c.off.toNat < c.on.toNat →
      (∀ j, (getField s.par.lo j).toNat ≤ (getField c j).toNat ∧ (getField c j).toNat ≤ (getField s.par.hi j).toNat) →
      ∃ t, exec .cfgLoad s = .next t ∧ t = { s with cfg := c, loaded := t.loaded })

/-- R263, R265 together: after a load, a write and a second load leave what the write left. -/
def Obligations.ReloadAfterWriteChangesNothing : Prop :=
  ∀ (s t u : State) (index : BitVec 3) (value : Byte), instanceOk s.par = true →
    exec .cfgLoad s = .next t → exec (.cfgWrite index value) t = .next u → exec .cfgLoad u = .next u

/-- R102, R301: the unused event codes are refused in every state. -/
def Obligations.UnusedEventCodesAreRefused : Prop :=
  (∀ x s, exec (.eventReservedA x) s = .refused .unusedEventCode) ∧
  ∀ x s, exec (.eventReservedB x) s = .refused .unusedEventCode

/-! ### Steps and encodings -/

/-- R14, R102, R103, R301, R312: a step runs the operation of the trace's first event with that event's inputs, if the
environment may start it, and an operation issued on its own in the state as it stands (log entries 3, 6 and 19). SAT.STEP
and LINK.DECODE are events only of a trace that exercises the link alone; that this is told by a field of the model, and
that the control loop's operations are refused there, is the model's choice (log entry 30). -/
def Obligations.StepRunsTheDecodedInstruction : Prop :=
  ∀ s : State,
    (∀ (e : Event) (rest : List Event) (i : Instr), instanceOk s.par = true → s.issued = [] → s.trace = e :: rest →
      decode (lineCtx s) e.code = some i →
      (i.isExternal = true ∧ s.traceKind = .wholeBlock ∨ i.isLinkAlone = true ∧ s.traceKind = .linkAlone →
        step s = exec i { s with
          trace := rest
          link := { s.link with adc := { s.link.adc with draws := e.inputs.adc }, line := e.inputs.line }
          tach := { s.tach with draws := e.inputs.tach }
          async := e.inputs.async
          stored := e.inputs.stored.getD s.stored }) ∧
      (i.isExternal = false → s.traceKind = .wholeBlock → step s = .refused .notAnExternalEvent) ∧
      (i.isLinkAlone = false → s.traceKind = .linkAlone →
        step s = .refused (if i.isExternal then .linkExercisedAlone else .notAnExternalEvent))) ∧
    (∀ (c : Code) (rest : List Code) (i : Instr), instanceOk s.par = true → s.issued = c :: rest →
      decode (lineCtx s) c = some i → step s = exec i { s with issued := rest }) ∧
    (∀ (e : Event) (rest : List Event), instanceOk s.par = true → s.issued = [] → s.trace = e :: rest →
      decode (lineCtx s) e.code = none → step s = .refused .noSuchEvent) ∧
    (∀ (c : Code) (rest : List Code), instanceOk s.par = true → s.issued = c :: rest →
      decode (lineCtx s) c = none → step s = .refused .noSuchEvent) ∧
    (instanceOk s.par = true → s.issued = [] → s.trace = [] → step s = .next s) ∧
    (instanceOk s.par = false → step s = .refused .badInstance) ∧
    (∀ w operand, (decodeWord w operand).map Instr.isExternal = some true ↔
      (decodeWord w operand).isSome = true ∧ (codeField w = 0 ∨ 0x12 ≤ codeField w)) ∧
    (∀ w operand, (decodeWord w operand).map Instr.isLinkAlone = some true ↔
      (decodeWord w operand).isSome = true ∧ (codeField w = 0 ∨ codeField w = 1 ∨ codeField w = 6 ∨ 0x16 ≤ codeField w)) ∧
    ∀ (nbits w : Nat) (i : Instr), instanceOk s.par = true → decodeTableWord nbits w = some i →
      step (s.withFetchWord nbits w) = exec i s

/-- R91, R92, R95, R103: decoding the encoding of a well-formed instruction, where it may stand, gives it back. -/
def Obligations.DecodeInvertsEncode : Prop :=
  ∀ (ctx : LineCtx) (i : Instr), ctx.lit = Literals.given → i.wellFormed = true → i.standsIn ctx = true →
    decode ctx (encode ctx i) = some i

/-- R102, R103, R111: an event word decodes exactly when it matches a row of the table, no two rows share a word, and a
decoded instruction encodes to the words it came from. -/
def Obligations.EventWordsAreTheTableRows : Prop :=
  (∀ w : EventWord, (decodeWord w 0).isSome = true ↔ ∃ row ∈ eventRows, w &&& row.2 = row.1) ∧
  eventRows.Pairwise (fun x y => ∀ w : EventWord, ¬(w &&& x.2 = x.1 ∧ w &&& y.2 = y.1)) ∧
  ∀ (ctx : LineCtx) (w operand : EventWord) (i : Instr), decodeWord w operand = some i →
    encode ctx i = .word w operand

/-- R91, R95, R102, R103: a few encodings written out. -/
def Obligations.SampleEncodingsDecode : Prop :=
  decodeTableWord 16 0b0000000000000000 = some (.reset .main) ∧
  decodeTableWord 16 0b0000000100000000 = some (.reset .sat) ∧
  decodeTableWord 16 0b0000001000000000 = none ∧
  decodeTableWord 16 0b0011000000000000 = some .linkDecode ∧
  decodeTableWord 16 0b1001000000000000 = some .timerTick ∧
  decodeTableWord 16 0b1001100000000000 = some .ctrlTick ∧
  decodeTableWord 16 0b1010000100100011 = some (.cfgWrite 1 35) ∧
  decodeTableWord 16 0b1010100000000000 = some .cfgLoad ∧
  decodeTableWord 16 0b1010100000000001 = none ∧
  decode { lit := Literals.given, dphase := .idle, nonSync := 0, prev := false } (.levels [true, true, true]) = some .s3 ∧
  decode { lit := Literals.given, dphase := .payload, nonSync := 0, prev := true } (.levels [false, false]) = some .b1 ∧
  decode { lit := Literals.given, dphase := .payload, nonSync := 0, prev := true } (.levels [false, false, false]) =
    some .runPayload3 ∧
  decode { lit := Literals.given, dphase := .search, nonSync := 20, prev := true } (.levels [false]) =
    some (.runNonsync21 false) ∧
  decode { lit := Literals.given, dphase := .idle, nonSync := 0, prev := false }
    (.levels [true, true, true, false, false, true, false, false, true, false, false, true, false, false, true, false,
      false, true]) = some (.msg 0x155)

/-! ### The machine as a whole -/

/-- R50, R21, R24, R40: every step keeps the invariants, from every state that has them. -/
def Obligations.StepKeepsTheInvariants : Prop :=
  ∀ s t : State, s.Inv → step s = .next t → t.Inv

/-- R50: they hold right after reset. -/
def Obligations.ResetHasTheInvariants : Prop := State.reset.Inv

/-- R20, R21: one writer for each register. `CTRL.TICK` runs the others and `RESET(main)` writes all; no operation but
`CFG.WRITE` writes a persisted byte (R72). -/
def Obligations.EachRegisterHasItsWriter : Prop :=
  ∀ (i : Instr) (s t : State), exec i s = .next t →
    t.par = s.par ∧ t.trace = s.trace ∧ t.traceKind = s.traceKind ∧ t.issued = s.issued ∧ t.stored = s.stored ∧
    (t.bytes ≠ s.bytes → ∃ index value, i = .cfgWrite index value) ∧
    (i ≠ .ctrlTick → i ≠ .reset .main →
      (t.temp ≠ s.temp ∨ t.sensorFault ≠ s.sensorFault → ∃ raw, i = .tfUpdate raw) ∧
      (t.hist ≠ s.hist → i = .sdTick ∨ i = .sdClear ∨ i = .tfUpdate none) ∧
      (t.cooldown ≠ s.cooldown → i = .sdTick) ∧
      (t.runState ≠ s.runState → i = .frState) ∧
      (t.fanCount ≠ s.fanCount → i = .frRamp) ∧
      (t.fanEn ≠ s.fanEn → i = .frOut) ∧
      (t.stuck ≠ s.stuck → i = .tmMeasure) ∧
      (t.stuckFan ≠ s.stuckFan → i = .tmReport) ∧
      (t.fault ≠ s.fault → i = .faEval) ∧
      (t.cfg ≠ s.cfg → i = .cfgLoad ∨ ∃ index value, i = .cfgWrite index value) ∧
      (t.cad ≠ s.cad → i = .timerTick ∨ i = .sdTick ∨ i = .frRamp ∨ i = .tmMeasure) ∧
      t.phase = s.phase ∧ t.heartbeat = s.heartbeat)

end Statements
end

