-- ==== Sys2Proof/Laws/Link.lean ====
section
/-! SUPPORT. What the shared link operations can do, said once: ports, the satellite's reaction, a link step, one run, the
search, the payload, a whole call. -/

namespace Sys2Proof.Machine

/-! ### Ports -/

theorem samplePort_fst {α : Type} (p : Port α) : (samplePort p).1 = portSample p 0 := by
  obtain ⟨v, ds⟩ := p
  cases ds <;> simp [samplePort, portSample]

theorem samplePort_draws {α : Type} (p : Port α) : (samplePort p).2.draws = p.draws.tail := by
  obtain ⟨v, ds⟩ := p
  cases ds <;> simp [samplePort]

theorem portSample_succ {α : Type} (p : Port α) (i : Nat) : portSample (samplePort p).2 i = portSample p (i + 1) := by
  obtain ⟨v, ds⟩ := p
  cases ds with
  | nil => simp [samplePort, portSample]
  | cons a ds =>
    cases ds with
    | nil => simp [samplePort, portSample]
    | cons b ds => simp [samplePort, portSample, List.getLast?_eq_some_getLast]

/-! ### The satellite -/

/-- What the literals of a valid instance satisfy. -/
theorem literalsOk_facts {c : Literals} (hc : literalsOk c = true) :
    1 ≤ c.bit0Len ∧ c.bit0Len < c.bit1Len ∧ c.bit1Len < c.syncLen ∧ c.syncLen ≤ 4 ∧ 1 ≤ c.payloadBits ∧
      c.payloadBits ≤ 10 ∧ 11 ≤ c.maxSearchRuns ∧ c.maxSearchRuns ≤ 30 := by
  simp only [literalsOk, Bool.and_eq_true, decide_eq_true_eq] at hc
  omega

theorem instanceOk_literals {p : Params} (h : instanceOk p = true) : literalsOk p.lit = true := by
  simp only [instanceOk, Bool.and_eq_true] at h
  tauto

theorem runLen_cases (c : Literals) (r : BitVec 4) (sample : Sample) :
    runLen c r sample = c.bit0Len ∨ runLen c r sample = c.bit1Len ∨ runLen c r sample = c.syncLen := by
  simp only [runLen]
  split_ifs <;> simp

/-- Every run is 1 to 4 half-cycles long. -/
theorem runLen_bounds {c : Literals} (hc : literalsOk c = true) (r : BitVec 4) (sample : Sample) :
    0 < runLen c r sample ∧ runLen c r sample ≤ 4 := by
  obtain ⟨h0, h1, h2, h3, -⟩ := literalsOk_facts hc
  rcases runLen_cases c r sample with h | h | h <;> omega

variable {c : Literals}

/-- The satellite is at a run index and inside that run (R24). -/
def SatPosition (c : Literals) (l : Link) : Prop :=
  l.sat.r.toNat ≤ c.payloadBits ∧ l.sat.k.toNat < runLen c l.sat.r l.sat.sample

@[simp] theorem satReact_clk (l : Link) : (satReact c l).clk = l.clk := by simp only [satReact]; split <;> rfl
@[simp] theorem satReact_dec (l : Link) : (satReact c l).dec = l.dec := by simp only [satReact]; split <;> rfl
@[simp] theorem satReact_raw (l : Link) : (satReact c l).raw = l.raw := by simp only [satReact]; split <;> rfl
@[simp] theorem satReact_line (l : Link) : (satReact c l).line = l.line := by simp only [satReact]; split <;> rfl
@[simp] theorem satReact_free (l : Link) : (satReact c l).free = l.free := by simp only [satReact]; split <;> rfl

/-- A clock event keeps the satellite at a legal position (R121, R24). -/
theorem satReact_position (hc : literalsOk c = true) (l : Link) (h : SatPosition c l) : SatPosition c (satReact c l) := by
  obtain ⟨hr, hk⟩ := h
  have hp := literalsOk_facts hc
  have hb := runLen_bounds hc l.sat.r l.sat.sample
  simp only [satReact]
  split
  · refine ⟨?_, by simpa using (runLen_bounds hc _ _).1⟩
    dsimp only
    split
    · simp
    · next hne =>
      simp only [Literals.runsPerMsg] at hne
      rw [BitVec.toNat_add]; simp; omega
  · next hne =>
    refine ⟨hr, ?_⟩
    dsimp only
    have hlt : l.sat.k.toNat + 1 < runLen c l.sat.r (sampleAhead l).1 := by
      by_cases hs : l.sat.k = 0 ∧ l.sat.r = 1
      · have hpos := runLen_bounds hc l.sat.r (sampleAhead l).1
        have : l.sat.k.toNat = 0 := by simp [hs.1]
        omega
      · have : (sampleAhead l).1 = l.sat.sample := by simp only [sampleAhead, if_neg hs]
        rw [this] at hne ⊢
        omega
    rw [BitVec.toNat_add]; simp; omega

theorem resetSatellite_position (hc : literalsOk c = true) (l : Link) : SatPosition c (resetSatellite l) := by
  refine ⟨by simp [resetSatellite], ?_⟩
  simpa [resetSatellite] using (runLen_bounds hc _ _).1

/-- `n` clock events touch the satellite and its ADC port only. -/
theorem satReacts_frame (n : Nat) (l : Link) :
    (satReacts c n l).clk = l.clk ∧ (satReacts c n l).dec = l.dec ∧ (satReacts c n l).raw = l.raw ∧
      (satReacts c n l).line = l.line ∧ (satReacts c n l).free = l.free ∧
      (literalsOk c = true → SatPosition c l → SatPosition c (satReacts c n l)) := by
  induction n generalizing l with
  | zero => simp [satReacts]
  | succ n ih =>
    obtain ⟨h1, h2, h3, h4, h5, h6⟩ := ih (satReact c l)
    simp only [satReacts]
    exact ⟨by simp [h1], by simp [h2], by simp [h3], by simp [h4], by simp [h5],
      fun hc h => h6 hc (satReact_position hc l h)⟩

/-! ### Link steps -/

/-- What any number of link steps can do outside the decoder's own registers. -/
structure Moved (c : Literals) (n : Nat) (l l' : Link) : Prop where
  line : l'.line = l.line.drop n
  clk : l'.clk = (l.clk ^^ decide (n % 2 = 1))
  raw : l'.raw = l.raw
  dphase : l'.dec.dphase = l.dec.dphase
  position : literalsOk c = true → SatPosition c l → SatPosition c l'

theorem Moved.none (l : Link) : Moved c 0 l l := ⟨by simp, by simp, rfl, rfl, fun _ => id⟩

theorem Moved.trans {m n : Nat} {l l' l'' : Link} (h : Moved c m l l') (h' : Moved c n l' l'') : Moved c (m + n) l l'' where
  line := by rw [h'.line, h.line, List.drop_drop]
  clk := by
    rw [h'.clk, h.clk]
    rcases Nat.mod_two_eq_zero_or_one m with hm | hm <;> rcases Nat.mod_two_eq_zero_or_one n with hn | hn <;>
      simp [Nat.add_mod, hm, hn]
  raw := by rw [h'.raw, h.raw]
  dphase := by rw [h'.dphase, h.dphase]
  position := fun hc hp => h'.position hc (h.position hc hp)

/-- A change of the decoder's registers other than `dphase`. -/
theorem Moved.withDec {n : Nat} {l l' : Link} (h : Moved c n l l') (d : Decoder) (hd : d.dphase = l'.dec.dphase) :
    Moved c n l { l' with dec := d } :=
  ⟨h.line, h.clk, h.raw, by rw [hd, h.dphase], h.position⟩

/-- The same, before the steps. -/
theorem Moved.ofDec {n : Nat} {l l' : Link} (d : Decoder) (h : Moved c n { l with dec := d } l')
    (hd : d.dphase = l.dec.dphase) : Moved c n l l' :=
  ⟨h.line, h.clk, h.raw, by rw [h.dphase, hd], h.position⟩

/-- What the clock events of one link step leave: everything but the satellite and its ADC port as it was (R121, R128). -/
theorem clockEvents_moved (f : ClockFault) (l : Link) :
    (clockEvents c f l).line = l.line ∧ (clockEvents c f l).clk = l.clk ∧ (clockEvents c f l).raw = l.raw ∧
      (clockEvents c f l).dec = l.dec ∧ (literalsOk c = true → SatPosition c l → SatPosition c (clockEvents c f l)) := by
  cases f
  · exact ⟨by simp [clockEvents], by simp [clockEvents], by simp [clockEvents], by simp [clockEvents],
      fun hc => satReact_position hc l⟩
  · exact ⟨rfl, rfl, rfl, rfl, fun _ => id⟩
  · exact ⟨by simp [clockEvents], by simp [clockEvents], by simp [clockEvents], by simp [clockEvents],
      fun hc h => satReact_position hc _ (satReact_position hc l h)⟩

theorem linkStepWith_moved (x : LineInput) (l : Link) :
    (linkStepWith c x l).1.line = l.line ∧ (linkStepWith c x l).1.clk = !l.clk ∧ (linkStepWith c x l).1.raw = l.raw ∧
      (linkStepWith c x l).1.dec = l.dec ∧ (literalsOk c = true → SatPosition c l → SatPosition c (linkStepWith c x l).1) := by
  simp only [linkStepWith]
  split
  · obtain ⟨h1, h2, h3, h4, h5⟩ := clockEvents_moved x.clock (resetSatellite { l with clk := !l.clk })
    exact ⟨h1, h2, h3, h4, fun hc _ => h5 hc (resetSatellite_position hc _)⟩
  · exact clockEvents_moved x.clock { l with clk := !l.clk }

/-- One link step: one line input, one clock event, the decoder's registers untouched (R66). -/
theorem linkHalfCycle_moved (l : Link) :
    Moved c 1 l (linkHalfCycle c l).1 ∧ (linkHalfCycle c l).1.dec = l.dec := by
  obtain ⟨sat, clk, dec, raw, adc, line, free⟩ := l
  cases line with
  | nil =>
    obtain ⟨h1, h2, h3, h4, h5⟩ :=
      linkStepWith_moved { fault := .clean, clock := .clean, resetSat := false } ⟨sat, clk, dec, raw, adc, [], free⟩
    exact ⟨⟨by simp [linkHalfCycle, nextLine, h1], by simp [linkHalfCycle, nextLine, h2],
      by simp [linkHalfCycle, nextLine, h3], by simp [linkHalfCycle, nextLine, h4], h5⟩, h4⟩
  | cons x xs =>
    obtain ⟨h1, h2, h3, h4, h5⟩ := linkStepWith_moved x ⟨sat, clk, dec, raw, adc, xs, free⟩
    exact ⟨⟨by simp [linkHalfCycle, nextLine, h1], by simp [linkHalfCycle, nextLine, h2],
      by simp [linkHalfCycle, nextLine, h3], by simp [linkHalfCycle, nextLine, h4], h5⟩, h4⟩

/-- The decoder's registers that a run measurement leaves alone. -/
def SameSearch (d d' : Decoder) : Prop :=
  d'.nonSync = d.nonSync ∧ d'.bitIndex = d.bitIndex ∧ d'.value = d.value

/-- LINK.RUN's loop from a count `n`: a run of at most `n + more` half-cycles, or too long (R143, R144). -/
theorem runLoop_cases (more : Nat) (l : Link) (hc : l.dec.count.toNat + more + 1 < 8) :
    SameSearch l.dec (runLoop c more l).1.dec ∧
    ((∃ k, k ≤ more ∧ Moved c (k + 1) l (runLoop c more l).1 ∧
        (runLoop c more l).2 = .length (l.dec.count.toNat + k) ∧
        (runLoop c more l).1.dec.count.toNat = l.dec.count.toNat + k ∧
        (runLoop c more l).1.dec.level = !l.dec.level) ∨
      (Moved c (more + 1) l (runLoop c more l).1 ∧ (runLoop c more l).2 = .tooLong ∧
        (runLoop c more l).1.dec.count.toNat = l.dec.count.toNat + more + 1 ∧
        (runLoop c more l).1.dec.level = l.dec.level)) := by
  induction more generalizing l with
  | zero =>
    obtain ⟨hm, hd⟩ := linkHalfCycle_moved l
    rw [runLoop]
    by_cases hx : (linkHalfCycle c l).2 ≠ (linkHalfCycle c l).1.dec.level
    · simp only [if_pos hx]
      refine ⟨by simp [SameSearch, hd], .inl ⟨0, le_rfl, hm.withDec _ rfl, by simp [hd], by simp [hd], ?_⟩⟩
      rw [hd] at hx
      exact Bool.eq_not.2 hx
    · simp only [if_neg hx]
      refine ⟨by simp [SameSearch, hd], .inr ⟨hm.withDec { (linkHalfCycle c l).1.dec with
        count := (linkHalfCycle c l).1.dec.count + 1 } rfl, trivial, ?_, by simp [hd]⟩⟩
      simp only [hd]
      rw [BitVec.toNat_add]; simp; omega
  | succ more ih =>
    obtain ⟨hm, hd⟩ := linkHalfCycle_moved l
    rw [runLoop]
    by_cases hx : (linkHalfCycle c l).2 ≠ (linkHalfCycle c l).1.dec.level
    · simp only [if_pos hx]
      refine ⟨by simp [SameSearch, hd], .inl ⟨0, by omega, hm.withDec _ rfl, by simp [hd], by simp [hd], ?_⟩⟩
      rw [hd] at hx
      exact Bool.eq_not.2 hx
    · simp only [if_neg hx]
      have hcount : (l.dec.count + 1).toNat = l.dec.count.toNat + 1 := by
        rw [BitVec.toNat_add]; simp; omega
      have hl' : Moved c 1 l
          { (linkHalfCycle c l).1 with
            dec := { (linkHalfCycle c l).1.dec with count := (linkHalfCycle c l).1.dec.count + 1 } } :=
        hm.withDec _ rfl
      obtain ⟨hs, h⟩ := ih
        { (linkHalfCycle c l).1 with
          dec := { (linkHalfCycle c l).1.dec with count := (linkHalfCycle c l).1.dec.count + 1 } }
        (by simp only [hd, hcount]; omega)
      simp only [hd, hcount, SameSearch] at hs h ⊢
      simp only [hd] at hl'
      refine ⟨hs, ?_⟩
      rcases h with ⟨k, hk, h1, h2, h3, h4⟩ | ⟨h1, h2, h3, h4⟩
      · refine .inl ⟨k + 1, by omega, ?_, ?_, ?_, h4⟩
        · have := hl'.trans h1
          rwa [show 1 + (k + 1) = k + 1 + 1 by omega] at this
        · rw [h2]; congr 1; omega
        · rw [h3]; omega
      · refine .inr ⟨?_, h2, by rw [h3]; omega, h4⟩
        have := hl'.trans h1
        rwa [show 1 + (more + 1) = more + 1 + 1 by omega] at this

/-- `LINK.RUN(limit)` (R143): a length from 1 to the limit that costs that many link steps, or too long, which costs
`limit` link steps. -/
theorem measureRun_cases (limit : Nat) (l : Link) (h1 : 1 ≤ limit) (h5 : limit ≤ 5) :
    SameSearch l.dec (measureRun c limit l).1.dec ∧
    ((∃ n, 1 ≤ n ∧ n ≤ limit ∧ Moved c n l (measureRun c limit l).1 ∧ (measureRun c limit l).2 = .length n ∧
        (measureRun c limit l).1.dec.count.toNat = n ∧ (measureRun c limit l).1.dec.level = !l.dec.level) ∨
      (Moved c limit l (measureRun c limit l).1 ∧ (measureRun c limit l).2 = .tooLong ∧
        (measureRun c limit l).1.dec.count.toNat = limit + 1 ∧ (measureRun c limit l).1.dec.level = l.dec.level)) := by
  obtain ⟨hs, h⟩ := runLoop_cases (limit - 1) { l with dec := { l.dec with count := 1 } } (by simp; omega)
  refine ⟨hs, ?_⟩
  rcases h with ⟨k, hk, ha, hb, hc, hd⟩ | ⟨ha, hb, hc, hd⟩
  · refine .inl ⟨k + 1, by omega, by omega, ha.ofDec _ rfl, ?_, ?_, hd⟩
    · have : (runLoop c (limit - 1) { l with dec := { l.dec with count := 1 } }).2 = .length (k + 1) := by
        rw [hb]; simp; omega
      exact this
    · have : (runLoop c (limit - 1) { l with dec := { l.dec with count := 1 } }).1.dec.count.toNat = k + 1 := by
        rw [hc]; simp; omega
      exact this
  · refine .inr ⟨?_, hb, ?_, hd⟩
    · have := ha.ofDec _ rfl
      rwa [show limit - 1 + 1 = limit by omega] at this
    · have : (runLoop c (limit - 1) { l with dec := { l.dec with count := 1 } }).1.dec.count.toNat = limit + 1 := by
        rw [hc]; simp; omega
      exact this

/-- One run costs at most `limit` link steps (R143). -/
theorem measureRun_moved (limit : Nat) (l : Link) (h1 : 1 ≤ limit) (h5 : limit ≤ 5) :
    ∃ k, k ≤ limit ∧ Moved c k l (measureRun c limit l).1 := by
  rcases (measureRun_cases (c := c) limit l h1 h5).2 with ⟨k, -, hk, hm, -⟩ | ⟨hm, -⟩
  · exact ⟨k, hk, hm⟩
  · exact ⟨limit, le_rfl, hm⟩

/-- Judging a run changes `nonSync` at most (R146). -/
theorem judgeSearchRun_moved {n : Nat} {l l' : Link} (m : RunLength) (h : Moved c n l l') :
    Moved c n l (judgeSearchRun c m l').1 := by
  simp only [judgeSearchRun]
  split
  · exact h
  · split_ifs
    · exact h
    · exact h.withDec _ rfl
    · exact h.withDec _ rfl

/-- The search costs at most `syncLen` link steps a run (R146, R154). -/
theorem syncLoop_moved (hc : literalsOk c = true) (n : Nat) (l : Link) :
    ∃ k, k ≤ n * c.syncLen ∧ Moved c k l (syncLoop c n l).1 := by
  induction n generalizing l with
  | zero => exact ⟨0, by omega, Moved.none l⟩
  | succ n ih =>
    have hf := literalsOk_facts hc
    obtain ⟨k, hk, hm⟩ := measureRun_moved (c := c) c.syncLen l (by omega) (by omega)
    have hj := judgeSearchRun_moved (measureRun c c.syncLen l).2 hm
    rw [syncLoop]
    rcases hx : judgeSearchRun c (measureRun c c.syncLen l).2 (measureRun c c.syncLen l).1 with ⟨l', _ | v⟩
    · rw [hx] at hj
      obtain ⟨k', hk', hm'⟩ := ih l'
      exact ⟨k + k', by rw [Nat.succ_mul]; omega, hj.trans hm'⟩
    · rw [hx] at hj
      exact ⟨k, by rw [Nat.succ_mul]; omega, hj⟩

/-- `LINK.SYNC` makes at most 21 times 3 link steps, by the names of the literals. -/
theorem searchMarker_moved (hc : literalsOk c = true) (l : Link) :
    ∃ k, k ≤ (c.maxSearchRuns + 1) * c.syncLen ∧ Moved c k l (searchMarker c l).1 := by
  obtain ⟨k, hk, hm⟩ := syncLoop_moved hc (c.maxSearchRuns + 1) { l with dec := { l.dec with nonSync := 0 } }
  exact ⟨k, hk, hm.ofDec _ rfl⟩

/-- The payload costs at most `bit1Len` link steps a run (R148, R154). -/
theorem payloadLoop_moved (hc : literalsOk c = true) (n : Nat) (l : Link) :
    ∃ k, k ≤ n * c.bit1Len ∧ Moved c k l (payloadLoop c n l).1 := by
  induction n generalizing l with
  | zero => exact ⟨0, by omega, Moved.none l⟩
  | succ n ih =>
    have hf := literalsOk_facts hc
    obtain ⟨k, hk, hm⟩ := measureRun_moved (c := c) c.bit1Len l (by omega) (by omega)
    rw [payloadLoop]
    rcases hx : (measureRun c c.bit1Len l).2 with n' | _
    · obtain ⟨k', hk', hm'⟩ := ih (takeBit c n' (measureRun c c.bit1Len l).1)
      exact ⟨k + k', by rw [Nat.succ_mul]; omega,
        (hm.withDec (takeBit c n' (measureRun c c.bit1Len l).1).dec rfl).trans hm'⟩
    · exact ⟨k, by rw [Nat.succ_mul]; omega, hm⟩

/-- `LINK.PAYLOAD` makes at most 10 times 2 link steps, by the names of the literals. -/
theorem readPayload_moved (hc : literalsOk c = true) (l : Link) :
    ∃ k, k ≤ c.payloadBits * c.bit1Len ∧ Moved c k l (readPayload c l).1 := by
  obtain ⟨k, hk, hm⟩ := payloadLoop_moved hc c.payloadBits (clearPayload l)
  exact ⟨k, hk, hm.ofDec (clearPayload l).dec rfl⟩

/-! ### The whole call -/

/-- What a call's end leaves: the call is over and `raw` is its result (R140). -/
theorem endCall_cases (m : DecodeResult) (l : Link) :
    (∃ v, m = .value v ∧ endCall m l = { l with dec := { l.dec with dphase := .idle }, raw := some v }) ∨
    (∃ cause, m = .noMessage cause ∧ endCall m l = { l with dec := { l.dec with dphase := .idle }, raw := none }) := by
  cases m with
  | value v => exact .inl ⟨v, rfl, rfl⟩
  | noMessage cause => exact .inr ⟨cause, rfl, rfl⟩

/-- A call on the levels it samples: some link steps, then the end of the call with its result (R140, R154). -/
theorem judgedCall_ends (hc : literalsOk c = true) (l : Link) :
    ∃ k l', 1 ≤ k ∧ k ≤ 1 + (c.maxSearchRuns + 1) * c.syncLen + c.payloadBits * c.bit1Len ∧
      l'.line = l.line.drop k ∧ l'.clk = (l.clk ^^ decide (k % 2 = 1)) ∧
      (SatPosition c l → SatPosition c l') ∧ (judgedCall c l).1 = endCall (judgedCall c l).2 l' := by
  obtain ⟨h0, -⟩ := linkHalfCycle_moved (c := c) (setDPhase .search l)
  obtain ⟨k1, hk1, h1⟩ := searchMarker_moved hc (referenceSample c l)
  have h01 := (h0.withDec (referenceSample c l).dec rfl).trans h1
  have hpos : SatPosition c l → SatPosition c (searchMarker c (referenceSample c l)).1 := h01.position hc
  rw [judgedCall]
  rcases hx : (searchMarker c (referenceSample c l)).2 with _ | cause
  · obtain ⟨k2, hk2, h2⟩ :=
      readPayload_moved hc (setDPhase .payload (waitSettle (setDPhase .settle (searchMarker c (referenceSample c l)).1)))
    refine ⟨1 + k1 + k2, _, by omega, by omega, ?_, ?_, fun h => h2.position hc (hpos h), rfl⟩
    · rw [h2.line, ← List.drop_drop]
      exact congrArg (List.drop k2) h01.line
    · rw [h2.clk]
      have hclk : (searchMarker c (referenceSample c l)).1.clk = (l.clk ^^ decide ((1 + k1) % 2 = 1)) := h01.clk
      change ((searchMarker c (referenceSample c l)).1.clk ^^ _) = _
      rw [hclk]
      rcases Nat.mod_two_eq_zero_or_one (1 + k1) with hm | hm <;>
        rcases Nat.mod_two_eq_zero_or_one k2 with hn | hn <;> simp [Nat.add_mod (1 + k1) k2, hm, hn]
  · exact ⟨1 + k1, _, by omega, by omega, h01.line, h01.clk, hpos, rfl⟩

/-- A call whose clock line is sound judges the levels it samples (R128). -/
theorem decodeCall_eq_judgedCall (l : Link) (n : Nat) (h : l.clockSound n)
    (hn : l.line.length - (judgedCall c l).1.line.length ≤ n) : decodeCall c l = judgedCall c l := by
  have hd : clockDisturbed l (judgedCall c l).1 = false := by
    simp only [clockDisturbed, List.any_eq_false, decide_eq_true_eq, ne_eq, not_not]
    intro x hx
    exact h x (List.take_subset_take_left _ hn hx)
  simp only [decodeCall, hd, Bool.false_eq_true, if_false]

/-- What a decode call can do (R140, R150, R154): it ends IDLE, its result is `raw`, and it makes at most
`1 + 21 * 3 + 10 * 2` link steps, by the names of the literals. -/
theorem decodeCall_cases (hc : literalsOk c = true) (l : Link) :
    (decodeCall c l).1.dec.dphase = .idle ∧
    (∃ k, k ≤ 1 + (c.maxSearchRuns + 1) * c.syncLen + c.payloadBits * c.bit1Len ∧
      (decodeCall c l).1.line = l.line.drop k ∧
      (decodeCall c l).1.clk = (l.clk ^^ decide (k % 2 = 1)) ∧ (SatPosition c l → SatPosition c (decodeCall c l).1)) ∧
    ((∃ v, (decodeCall c l).2 = .value v ∧ (decodeCall c l).1.raw = some v) ∨
      (∃ cause, (decodeCall c l).2 = .noMessage cause ∧ (decodeCall c l).1.raw = none)) := by
  have hend : ∀ (m : DecodeResult) (l' : Link), (endCall m l').dec.dphase = .idle ∧ (endCall m l').line = l'.line ∧
      (endCall m l').clk = l'.clk ∧ (SatPosition c l' → SatPosition c (endCall m l')) ∧
      ((∃ v, m = .value v ∧ (endCall m l').raw = some v) ∨
        (∃ cause, m = .noMessage cause ∧ (endCall m l').raw = none)) := by
    intro m l'
    cases m with
    | value v => exact ⟨rfl, rfl, rfl, id, .inl ⟨v, rfl, rfl⟩⟩
    | noMessage cause => exact ⟨rfl, rfl, rfl, id, .inr ⟨cause, rfl, rfl⟩⟩
  obtain ⟨k, l', -, hk, hline, hclk, hpos, hl'⟩ := judgedCall_ends hc l
  obtain ⟨e1, e2, e3, e4, e5⟩ := hend (judgedCall c l).2 l'
  rw [← hl'] at e1 e2 e3 e4 e5
  by_cases hd : clockDisturbed l (judgedCall c l).1 = true
  · simp only [decodeCall, hd, if_true, endOpen]
    obtain ⟨f1, f2, f3, f4, f5⟩ := hend (Config.freeOutcome (judgedCall c l).1.free)
      { (judgedCall c l).1 with free := (judgedCall c l).1.free + 1 }
    exact ⟨f1, ⟨k, hk, by rw [f2]; exact e2.trans hline, by rw [f3]; exact e3.trans hclk,
      fun h => f4 (e4 (hpos h))⟩, f5⟩
  · simp only [decodeCall, hd]
    exact ⟨e1, ⟨k, hk, e2.trans hline, e3.trans hclk, fun h => e4 (hpos h)⟩, e5⟩

end Sys2Proof.Machine
end

