-- ==== Sys2Proof/Laws/Control.lean ====
section
/-! SUPPORT. What the shared operations of the control loop can do, said once: counters, the filter, the history, the
spike tick, the ramp, the fan outputs, the tachometer window, the phase boundary. -/

namespace Sys2Proof.Machine

/-! ### Counters -/

theorem countUp_toNat (c : Counter) : (countUp c).toNat = min (c.toNat + 1) 65535 := by
  simp only [countUp, Const.counterMax, BitVec.toNat_ofNat]
  omega

/-- The test-and-clear (R77): due and cleared, or neither. -/
theorem due_cases (c : Counter) (period : Nat) :
    (period ≤ c.toNat ∧ due c period = (true, 0)) ∨ (c.toNat < period ∧ due c period = (false, c)) := by
  by_cases h : period ≤ c.toNat
  · exact .inl ⟨h, by simp [due, isDue, h]⟩
  · exact .inr ⟨not_le.1 h, by simp [due, isDue, h]⟩

/-! ### The filter and the history -/

/-- One filter step as an integer (R172, R174, R175): it never wraps. -/
theorem filterStep_cases (margin : Nat) (t inst : Temp) :
    (t = 0 ∧ filterStep margin t inst = inst) ∨
    (t ≠ 0 ∧ t.toInt + margin < inst.toInt ∧ (filterStep margin t inst).toInt = t.toInt + 1) ∨
    (t ≠ 0 ∧ inst.toInt < t.toInt - margin ∧ (filterStep margin t inst).toInt = t.toInt - 1) ∨
    (t ≠ 0 ∧ (inst.toInt - t.toInt).natAbs ≤ margin ∧ filterStep margin t inst = t) := by
  have ht := BitVec.le_toInt t
  have ht' := BitVec.toInt_lt (x := t)
  have hi := BitVec.le_toInt inst
  have hi' := BitVec.toInt_lt (x := inst)
  rw [filterStep]
  split_ifs with h0 h1 h2
  · exact .inl ⟨h0, rfl⟩
  · refine .inr (.inl ⟨h0, h1, ?_⟩)
    rw [BitVec.toInt_add, show (1 : Temp).toInt = 1 from rfl, Int.bmod_def]; omega
  · refine .inr (.inr (.inl ⟨h0, h2, ?_⟩))
    rw [BitVec.toInt_sub, show (1 : Temp).toInt = 1 from rfl, Int.bmod_def]; omega
  · exact .inr (.inr (.inr ⟨h0, by omega, rfl⟩))

/-- The history never outgrows its cells (R32). -/
theorem pushHistory_length_le (cap : Nat) (width : Byte) (t : Temp) (hist : List Temp) :
    (pushHistory cap width t hist).length ≤ cap := by
  simp only [pushHistory, List.length_take]
  omega

/-- The push for every width the configuration admits (R187, R39). -/
theorem pushHistory_eq_take (c : Literals) (width : Byte) (t : Temp) (hist : List Temp)
    (h : width.toNat ≤ c.spikeWidthMax) :
    pushHistory c.histCap width t hist = (t :: hist).take (width.toNat + 1) := by
  rw [pushHistory, Literals.histCap, Nat.min_eq_left (by omega)]

/-- What the spike tick can do (R185, R191). -/
theorem spikeTick_cases (s : State) :
    (s.cad.spike.toNat < s.par.lit.spikePeriod ∧ spikeTick s = s) ∨
    (s.par.lit.spikePeriod ≤ s.cad.spike.toNat ∧ s.cooldown ≠ 0 ∧
      spikeTick s = { s with cad := { s.cad with spike := 0 }, cooldown := s.cooldown - 1 }) ∨
    (s.par.lit.spikePeriod ≤ s.cad.spike.toNat ∧ s.cooldown = 0 ∧ s.sensorFault = true ∧
      spikeTick s = { s with cad := { s.cad with spike := 0 } }) ∨
    (s.par.lit.spikePeriod ≤ s.cad.spike.toNat ∧ s.cooldown = 0 ∧ s.sensorFault = false ∧
      spikeTick s = sampleHistory { s with cad := { s.cad with spike := 0 } }) := by
  rcases due_cases s.cad.spike s.par.lit.spikePeriod with ⟨h, hd⟩ | ⟨h, hd⟩
  · by_cases hc : s.cooldown = 0
    · cases hf : s.sensorFault
      · exact .inr (.inr (.inr ⟨h, hc, rfl, by simp [spikeTick, hd, State.spikeArmed, hc, hf]⟩))
      · exact .inr (.inr (.inl ⟨h, hc, rfl, by simp [spikeTick, hd, State.spikeArmed, hc, hf]⟩))
    · have ha : State.spikeArmed { s with cad := { s.cad with spike := 0 } } = true := decide_eq_true hc
      exact .inr (.inl ⟨h, hc, by simp only [spikeTick, hd, ha, if_true]⟩)
  · exact .inl ⟨h, by simp [spikeTick, hd]⟩

/-! ### The ramp and the fan outputs -/

/-- The next count is at most one away and stays within the fans (R205). -/
theorem nextFanCount_near (s : State) (hp : s.par.fanAmount ≤ 255) (h : s.fanCount.toNat ≤ s.par.fanAmount) :
    (nextFanCount s).toNat ≤ s.fanCount.toNat + 1 ∧ s.fanCount.toNat ≤ (nextFanCount s).toNat + 1 ∧
      (nextFanCount s).toNat ≤ s.par.fanAmount := by
  simp only [nextFanCount]
  split_ifs with h1 h2 h3
  · have : (s.fanCount - 1).toNat = s.fanCount.toNat - 1 := by
      rw [BitVec.toNat_sub]; simp; omega
    omega
  · omega
  · have : (s.fanCount + 1).toNat = s.fanCount.toNat + 1 := by
      rw [BitVec.toNat_add]; simp; omega
    omega
  · omega

@[simp] theorem driveFans_length (p : Params) (k : Nat) : (driveFans p k).length = p.fanAmount := by simp [driveFans]

/-- The level of each channel (R70). -/
theorem driveFans_get (p : Params) (k c : Nat) (h : c < p.fanAmount) :
    (driveFans p k)[c]? = some (decide (p.fanOrder.idxOf c < k)) := by
  simp [driveFans, List.getElem?_range h]

/-! ### The tachometer window -/

theorem allChanged_iff (fans : Nat) (changed : TachVec) :
    allChanged fans changed = true ↔ ∀ f, f < fans → changed.getLsbD f = true := by
  simp [allChanged, List.all_eq_true, List.mem_range]

/-- The window's re-samples (R228, R229): it draws `m` of at most `n`, stops at the first after which every fan has shown
a difference, and marks the lines that differ from the first sample in one of the `m`. -/
theorem sampleWindow_spec (fans : Nat) (first : TachVec) (n : Nat) (changed : TachVec) (p : Port TachVec) :
    ∃ m, m ≤ n ∧ (1 ≤ n → 1 ≤ m) ∧
      (∀ i, portSample (sampleWindow fans first n changed p).2 i = portSample p (i + m)) ∧
      (sampleWindow fans first n changed p).2.draws = p.draws.drop m ∧
      (∀ f, (sampleWindow fans first n changed p).1.getLsbD f = true ↔
        changed.getLsbD f = true ∨ ∃ i, i < m ∧ (portSample p i).getLsbD f ≠ first.getLsbD f) ∧
      (m < n → ∀ f, f < fans → (sampleWindow fans first n changed p).1.getLsbD f = true) ∧
      ∀ k, 1 ≤ k → k < m → ∃ f, f < fans ∧
        ¬(changed.getLsbD f = true ∨ ∃ i, i < k ∧ (portSample p i).getLsbD f ≠ first.getLsbD f) := by
  induction n generalizing changed p with
  | zero =>
    exact ⟨0, le_rfl, by omega, fun i => rfl, by simp [sampleWindow], fun f => by simp [sampleWindow], by omega,
      by omega⟩
  | succ n ih =>
    have hbit : ∀ f, (changed ||| ((samplePort p).1 ^^^ first)).getLsbD f = true ↔
        changed.getLsbD f = true ∨ (portSample p 0).getLsbD f ≠ first.getLsbD f := by
      intro f
      rw [samplePort_fst, BitVec.getLsbD_or, BitVec.getLsbD_xor]
      cases changed.getLsbD f <;> cases (portSample p 0).getLsbD f <;> cases first.getLsbD f <;> simp
    have hshift : ∀ f k, ((changed ||| ((samplePort p).1 ^^^ first)).getLsbD f = true ∨
          ∃ i, i < k ∧ (portSample (samplePort p).2 i).getLsbD f ≠ first.getLsbD f) ↔
        changed.getLsbD f = true ∨ ∃ i, i < k + 1 ∧ (portSample p i).getLsbD f ≠ first.getLsbD f := by
      intro f k
      rw [hbit f]
      constructor
      · rintro ((h | h) | ⟨i, hi, h⟩)
        · exact .inl h
        · exact .inr ⟨0, by omega, h⟩
        · exact .inr ⟨i + 1, by omega, by rwa [portSample_succ] at h⟩
      · rintro (h | ⟨i, hi, h⟩)
        · exact .inl (.inl h)
        · cases i with
          | zero => exact .inl (.inr h)
          | succ i => exact .inr ⟨i, by omega, by rwa [portSample_succ]⟩
    simp only [sampleWindow]
    split
    · next hall =>
      rw [allChanged_iff] at hall
      refine ⟨1, by omega, fun _ => le_rfl, portSample_succ p, by rw [samplePort_draws, List.drop_one], fun f => ?_,
        fun _ => hall, by omega⟩
      rw [← hshift f 0]
      simp
    · next hall =>
      rw [allChanged_iff] at hall
      obtain ⟨m, hm, -, hport, hdraws, hseen, hstop, hfirst⟩ :=
        ih (changed ||| ((samplePort p).1 ^^^ first)) (samplePort p).2
      refine ⟨m + 1, by omega, by omega, fun i => by rw [hport, portSample_succ, Nat.add_assoc],
        by rw [hdraws, samplePort_draws, ← List.drop_one, List.drop_drop, Nat.add_comm],
        fun f => by rw [hseen f, hshift f m], fun h => hstop (by omega), fun k hk hkm => ?_⟩
      cases k with
      | zero => omega
      | succ k =>
        rcases Nat.eq_zero_or_pos k with rfl | hk0
        · simp only [not_forall] at hall
          obtain ⟨f, hf, hn⟩ := hall
          refine ⟨f, hf, fun h => hn ?_⟩
          rw [← hshift f 0] at h
          rcases h with h | ⟨i, hi, -⟩
          · exact h
          · omega
        · obtain ⟨f, hf, hn⟩ := hfirst k hk0 (by omega)
          exact ⟨f, hf, fun h => hn ((hshift f k).2 h)⟩

/-! ### The control tick -/

/-- A phase boundary (R251, R318): the tick has already ended, or a `RESET(main)` ends it here, or the next phase runs. -/
theorem nextPhase_cases (done next : Phase) (body : State → State) (s : State) :
    (s.phase ≠ done ∧ nextPhase done next body s = s) ∨
    (s.phase = done ∧ (arrivals s).phase ≠ done ∧ nextPhase done next body s = arrivals s) ∨
    (s.phase = done ∧ (arrivals s).phase = done ∧
      nextPhase done next body s = body { arrivals s with phase := next }) := by
  by_cases h : s.phase = done
  · by_cases h' : (arrivals s).phase = done
    · exact .inr (.inr ⟨h, h', by simp [nextPhase, h, h']⟩)
    · exact .inr (.inl ⟨h, h', by simp [nextPhase, h, h']⟩)
  · exact .inl ⟨h, by simp [nextPhase, h]⟩

/-- What arrives leaves the phase as it is, or IDLE (R251, R310). -/
theorem arrivals_phase (s : State) : (arrivals s).phase = s.phase ∨ (arrivals s).phase = .idle := by
  have hfold : ∀ (as : List Async) (u : State), (as.foldl arrive u).phase = u.phase ∨ (as.foldl arrive u).phase = .idle := by
    intro as
    induction as with
    | nil => exact fun u => .inl rfl
    | cons a as ih =>
      intro u
      rcases ih (arrive u a) with h | h
      · cases a
        · exact .inl h
        · exact .inr h
        · exact .inl h
      · exact .inr h
  rw [arrivals]
  split
  · exact .inl rfl
  · exact hfold _ _

/-! ### The configuration -/

theorem getField_setField (t : Thresholds) (i j : Fin 5) (b : Byte) :
    getField (setField t i b) j = if j = i then b else getField t j := by
  fin_cases i <;> fin_cases j <;> rfl

theorem fieldOf_eq_some_iff (index : BitVec 3) (i : Fin 5) : fieldOf index = some i ↔ index.toNat = i.val := by
  simp only [fieldOf]
  split
  · simp [Fin.ext_iff]
  · have := i.isLt; simp; omega

end Sys2Proof.Machine
end

