-- ==== Sys2Proof/Laws/Memory.lean ====
section
/-! SUPPORT. The persisted bytes: every memory operation keeps the canonical form; a read after a write. -/

namespace Sys2Proof.Machine

theorem memory_wf_iff (m : Memory) :
    Memory.wf m = true ↔ m.Pairwise (fun x y => x.1 < y.1) ∧ ∀ c ∈ m, c.1 < 5 := by
  simp [Memory.wf, List.all_eq_true]

/-- What is listed after a write was listed before, or is the byte written. -/
theorem mem_write (m : Memory) (i : Nat) (b : Byte) (c : Host.Cell) (h : c ∈ Memory.write m i b) :
    c = (i, b) ∨ c ∈ m := by
  induction m with
  | nil => simpa [Memory.write] using h
  | cons x m ih =>
    obtain ⟨a, d⟩ := x
    simp only [Memory.write] at h
    split_ifs at h
    · rcases List.mem_cons.1 h with h | h
      · exact .inl h
      · exact .inr h
    · rcases List.mem_cons.1 h with h | h
      · exact .inl h
      · exact .inr (List.mem_cons_of_mem _ h)
    · rcases List.mem_cons.1 h with h | h
      · exact .inr (h ▸ List.mem_cons_self)
      · exact (ih h).imp id (List.mem_cons_of_mem _)

theorem write_pairwise (m : Memory) (i : Nat) (b : Byte) (h : m.Pairwise (fun x y => x.1 < y.1)) :
    (Memory.write m i b).Pairwise (fun x y => x.1 < y.1) := by
  induction m with
  | nil => simp [Memory.write]
  | cons x m ih =>
    obtain ⟨a, d⟩ := x
    obtain ⟨hx, hm⟩ := List.pairwise_cons.1 h
    simp only [Memory.write]
    split_ifs with h1 h2
    · refine List.pairwise_cons.2 ⟨fun c hc => ?_, h⟩
      rcases List.mem_cons.1 hc with rfl | hc
      · exact h1
      · exact lt_trans h1 (hx c hc)
    · exact List.pairwise_cons.2 ⟨fun c hc => h2 ▸ hx c hc, hm⟩
    · refine List.pairwise_cons.2 ⟨fun c hc => ?_, ih hm⟩
      rcases mem_write m i b c hc with rfl | hc
      · show a < i; omega
      · exact hx c hc

/-- Every write keeps the canonical form. -/
theorem write_wf (m : Memory) (i : Nat) (b : Byte) (hi : i < 5) (h : Memory.wf m = true) :
    Memory.wf (Memory.write m i b) = true := by
  rw [memory_wf_iff] at h ⊢
  refine ⟨write_pairwise m i b h.1, fun c hc => ?_⟩
  rcases mem_write m i b c hc with rfl | hc
  · exact hi
  · exact h.2 c hc

/-- `CfgByteWrite` keeps the canonical form. -/
theorem cfgByteWrite_wf (m : Memory) (i : Fin 5) (b : Byte) (h : Memory.wf m = true) :
    Memory.wf (cfgByteWrite m i b) = true := write_wf m i.val b i.isLt h

theorem read_eq_none (m : Memory) (i : Nat) (h : ∀ c ∈ m, i < c.1) : Memory.read m i = none := by
  induction m with
  | nil => rfl
  | cons x m ih =>
    obtain ⟨a, d⟩ := x
    have : i < a := h (a, d) List.mem_cons_self
    have hne : a ≠ i := by omega
    simp only [Memory.read, hne, if_false]
    exact ih fun c hc => h c (List.mem_cons_of_mem _ hc)

/-- A read after a write: the written byte at its index, every other byte as before. -/
theorem read_write (m : Memory) (i j : Nat) (b : Byte) :
    Memory.read (Memory.write m i b) j = if j = i then some b else Memory.read m j := by
  induction m with
  | nil => by_cases h : i = j <;> simp [Memory.write, Memory.read, h, Ne.symm]
  | cons x m ih =>
    obtain ⟨a, d⟩ := x
    by_cases hj : j = i
    · subst hj
      simp only [Memory.write]
      split_ifs with h1 h2
      · simp [Memory.read]
      · simp [Memory.read]
      · simpa [Memory.read, Ne.symm h2] using ih
    · simp only [hj, if_false] at ih ⊢
      simp only [Memory.write]
      split_ifs with h1 h2
      · simp [Memory.read, Ne.symm hj]
      · subst h2; simp [Memory.read, Ne.symm hj]
      · simp [Memory.read, ih]

/-- A read of a persisted byte after a write of one. -/
theorem cfgByteRead_write (stored : Thresholds) (m : Memory) (i j : Fin 5) (b : Byte) :
    cfgByteRead stored (cfgByteWrite m i b) j = if j = i then b else cfgByteRead stored m j := by
  simp only [cfgByteRead, cfgByteWrite, read_write m i.val j.val b, Fin.ext_iff]
  split_ifs <;> rfl

end Sys2Proof.Machine
end

