-- ==== Sys2Proof/Laws/PerInstr.lean ====
section
/-! SUPPORT. The family RowMatch: the encoding of every instruction has the form of its row of spec/opcode_table.json
(spec/30_encoding.md R91, R102, R103, R111). -/

namespace Sys2Proof.Laws

open Machine

/-- The (match, mask) pair of an instruction's EVENT row; none for the RUN and FRAME rows, which are level strings. -/
def rowOf : Instr → Option (EventWord × EventWord)
  | .s3 | .b1 | .b0 | .runPayload3 | .runLong | .runNonsync21 _ | .msg _ => none
  | .reset _ => some (0x0000, 0xFEFF)
  | .satStep => some (0x0800, 0xFFFF)
  | .linkStep _ => some (0x1000, 0xFFFF)
  | .linkRun _ => some (0x1800, 0xFFFF)
  | .linkSync => some (0x2000, 0xFFFF)
  | .linkPayload => some (0x2800, 0xFFFF)
  | .linkDecode => some (0x3000, 0xFFFF)
  | .tfConvert _ => some (0x3800, 0xFFFF)
  | .tfUpdate _ => some (0x4000, 0xFFFF)
  | .sdClear => some (0x4800, 0xFFFF)
  | .sdTick => some (0x5000, 0xFFFF)
  | .frState => some (0x5800, 0xFFFF)
  | .frRamp => some (0x6000, 0xFFFF)
  | .frOut => some (0x6800, 0xFFFF)
  | .tmGate => some (0x7000, 0xFFFF)
  | .tmMeasure => some (0x7800, 0xFFFF)
  | .tmReport => some (0x8000, 0xFFFF)
  | .faEval => some (0x8800, 0xFFFF)
  | .timerTick => some (0x9000, 0xFFFF)
  | .ctrlTick => some (0x9800, 0xFFFF)
  | .cfgWrite _ _ => some (0xA000, 0xF800)
  | .cfgLoad => some (0xA800, 0xFFFF)
  | .eventReservedA _ => some (0xB000, 0xF000)
  | .eventReservedB _ => some (0xC000, 0xC000)

/-- The code has the row's form: a word that matches, or a level string that starts with the inverse of the run
before it. -/
def HasForm (ctx : LineCtx) : Option (EventWord × EventWord) → Code → Prop
  | some row, .word w _ => w &&& row.2 = row.1
  | none, .levels ls => ls.head? = some (!ctx.prev)
  | _, _ => False

/-- In every context with valid literals the instruction's encoding has the form of its row. -/
def RowMatch.Statement (i : Instr) : Prop :=
  ∀ ctx : LineCtx, literalsOk ctx.lit = true → HasForm ctx (rowOf i) (encode ctx i)

/-- A level string of runs starts with the inverse of the level before it (R91). -/
theorem levelsOf_head (q : Bool) (n : Nat) (rs : List Nat) (h : 0 < n) : (levelsOf q (n :: rs)).head? = some (!q) := by
  obtain ⟨k, rfl⟩ : ∃ k, n = k + 1 := ⟨n - 1, by omega⟩
  rfl

namespace RowMatch

theorem s3 : Statement .s3 := fun _ hc => by
  have h := literalsOk_facts hc
  exact levelsOf_head _ _ _ (by omega)
theorem b1 : Statement .b1 := fun _ hc => by
  have h := literalsOk_facts hc
  exact levelsOf_head _ _ _ (by omega)
theorem b0 : Statement .b0 := fun _ hc => by
  have h := literalsOk_facts hc
  exact levelsOf_head _ _ _ (by omega)
theorem runPayload3 : Statement .runPayload3 := fun _ hc => by
  have h := literalsOk_facts hc
  exact levelsOf_head _ _ _ (by omega)
theorem runLong : Statement .runLong := fun _ hc => by
  have h := literalsOk_facts hc
  exact levelsOf_head _ _ _ (by omega)
theorem runNonsync21 (two : Bool) : Statement (.runNonsync21 two) := fun _ hc => by
  have h := literalsOk_facts hc
  cases two
  · exact levelsOf_head _ _ _ h.1
  · exact levelsOf_head _ _ _ (by show 0 < _; simp only [if_true]; omega)
theorem msg (v : Sample) : Statement (.msg v) := fun _ hc => by
  have h := literalsOk_facts hc
  exact levelsOf_head _ _ _ (by omega)
theorem reset (unit : ResetUnit) : Statement (.reset unit) := fun _ _ => by cases unit <;> rfl
theorem satStep : Statement .satStep := fun _ _ => rfl
theorem linkStep (g : Bool) : Statement (.linkStep g) := fun _ _ => rfl
theorem linkRun (limit : RunLimit) : Statement (.linkRun limit) := fun _ _ => by cases limit <;> rfl
theorem linkSync : Statement .linkSync := fun _ _ => rfl
theorem linkPayload : Statement .linkPayload := fun _ _ => rfl
theorem linkDecode : Statement .linkDecode := fun _ _ => rfl
theorem tfConvert (v : Sample) : Statement (.tfConvert v) := fun _ _ => rfl
theorem tfUpdate (raw : Option Sample) : Statement (.tfUpdate raw) := fun _ _ => rfl
theorem sdClear : Statement .sdClear := fun _ _ => rfl
theorem sdTick : Statement .sdTick := fun _ _ => rfl
theorem frState : Statement .frState := fun _ _ => rfl
theorem frRamp : Statement .frRamp := fun _ _ => rfl
theorem frOut : Statement .frOut := fun _ _ => rfl
theorem tmGate : Statement .tmGate := fun _ _ => rfl
theorem tmMeasure : Statement .tmMeasure := fun _ _ => rfl
theorem tmReport : Statement .tmReport := fun _ _ => rfl
theorem faEval : Statement .faEval := fun _ _ => rfl
theorem timerTick : Statement .timerTick := fun _ _ => rfl
theorem ctrlTick : Statement .ctrlTick := fun _ _ => rfl

theorem cfgWrite (index : BitVec 3) (value : Byte) : Statement (.cfgWrite index value) := fun _ _ => by
  show (eventWord 0x14 index value) &&& 0xF800#16 = 0xA000#16
  have h : (0xF800#16 : EventWord) = 0x1F#5 ++ 0#3 ++ 0#8 := by decide
  rw [eventWord, h, BitVec.and_append, BitVec.and_append, BitVec.and_zero, BitVec.and_zero]
  decide

theorem cfgLoad : Statement .cfgLoad := fun _ _ => rfl

theorem eventReservedA (x : BitVec 12) : Statement (.eventReservedA x) := fun _ _ => by
  show (0b1011#4 ++ x) &&& 0xF000#16 = 0xB000#16
  have h : (0xF000#16 : EventWord) = 0xF#4 ++ 0#12 := by decide
  rw [h, BitVec.and_append, BitVec.and_zero]
  decide

theorem eventReservedB (x : BitVec 14) : Statement (.eventReservedB x) := fun _ _ => by
  show (0b11#2 ++ x) &&& 0xC000#16 = 0xC000#16
  have h : (0xC000#16 : EventWord) = 0b11#2 ++ 0#14 := by decide
  rw [h, BitVec.and_append, BitVec.and_zero]
  decide

end RowMatch

end Sys2Proof.Laws
end

