-- ==== Sys2Proof/Laws/State.lean ====
section
/-! SUPPORT. One lemma per field per named update of the state, so that no proof unfolds a record update. -/

namespace Sys2Proof.Machine

/-! ### `timerWork` -/

@[simp] theorem timerWork_par (s : State) : (timerWork s).par = s.par := rfl
@[simp] theorem timerWork_trace (s : State) : (timerWork s).trace = s.trace := rfl
@[simp] theorem timerWork_issued (s : State) : (timerWork s).issued = s.issued := rfl
@[simp] theorem timerWork_traceKind (s : State) : (timerWork s).traceKind = s.traceKind := rfl
@[simp] theorem timerWork_stored (s : State) : (timerWork s).stored = s.stored := rfl
@[simp] theorem timerWork_link (s : State) : (timerWork s).link = s.link := rfl
@[simp] theorem timerWork_temp (s : State) : (timerWork s).temp = s.temp := rfl
@[simp] theorem timerWork_sensorFault (s : State) : (timerWork s).sensorFault = s.sensorFault := rfl
@[simp] theorem timerWork_hist (s : State) : (timerWork s).hist = s.hist := rfl
@[simp] theorem timerWork_cooldown (s : State) : (timerWork s).cooldown = s.cooldown := rfl
@[simp] theorem timerWork_runState (s : State) : (timerWork s).runState = s.runState := rfl
@[simp] theorem timerWork_fanCount (s : State) : (timerWork s).fanCount = s.fanCount := rfl
@[simp] theorem timerWork_fanEn (s : State) : (timerWork s).fanEn = s.fanEn := rfl
@[simp] theorem timerWork_stuck (s : State) : (timerWork s).stuck = s.stuck := rfl
@[simp] theorem timerWork_stuckFan (s : State) : (timerWork s).stuckFan = s.stuckFan := rfl
@[simp] theorem timerWork_fault (s : State) : (timerWork s).fault = s.fault := rfl
@[simp] theorem timerWork_cfg (s : State) : (timerWork s).cfg = s.cfg := rfl
@[simp] theorem timerWork_loaded (s : State) : (timerWork s).loaded = s.loaded := rfl
@[simp] theorem timerWork_phase (s : State) : (timerWork s).phase = s.phase := rfl
@[simp] theorem timerWork_heartbeat (s : State) : (timerWork s).heartbeat = s.heartbeat := rfl
@[simp] theorem timerWork_bytes (s : State) : (timerWork s).bytes = s.bytes := rfl
@[simp] theorem timerWork_tach (s : State) : (timerWork s).tach = s.tach := rfl
@[simp] theorem timerWork_async (s : State) : (timerWork s).async = s.async := rfl
@[simp] theorem timerWork_ret (s : State) : (timerWork s).ret = s.ret := rfl

/-! ### `clearHistory` -/

@[simp] theorem clearHistory_par (s : State) : (clearHistory s).par = s.par := rfl
@[simp] theorem clearHistory_trace (s : State) : (clearHistory s).trace = s.trace := rfl
@[simp] theorem clearHistory_issued (s : State) : (clearHistory s).issued = s.issued := rfl
@[simp] theorem clearHistory_traceKind (s : State) : (clearHistory s).traceKind = s.traceKind := rfl
@[simp] theorem clearHistory_stored (s : State) : (clearHistory s).stored = s.stored := rfl
@[simp] theorem clearHistory_link (s : State) : (clearHistory s).link = s.link := rfl
@[simp] theorem clearHistory_temp (s : State) : (clearHistory s).temp = s.temp := rfl
@[simp] theorem clearHistory_sensorFault (s : State) : (clearHistory s).sensorFault = s.sensorFault := rfl
@[simp] theorem clearHistory_hist (s : State) : (clearHistory s).hist = [] := rfl
@[simp] theorem clearHistory_cooldown (s : State) : (clearHistory s).cooldown = s.cooldown := rfl
@[simp] theorem clearHistory_runState (s : State) : (clearHistory s).runState = s.runState := rfl
@[simp] theorem clearHistory_fanCount (s : State) : (clearHistory s).fanCount = s.fanCount := rfl
@[simp] theorem clearHistory_fanEn (s : State) : (clearHistory s).fanEn = s.fanEn := rfl
@[simp] theorem clearHistory_stuck (s : State) : (clearHistory s).stuck = s.stuck := rfl
@[simp] theorem clearHistory_stuckFan (s : State) : (clearHistory s).stuckFan = s.stuckFan := rfl
@[simp] theorem clearHistory_fault (s : State) : (clearHistory s).fault = s.fault := rfl
@[simp] theorem clearHistory_cfg (s : State) : (clearHistory s).cfg = s.cfg := rfl
@[simp] theorem clearHistory_loaded (s : State) : (clearHistory s).loaded = s.loaded := rfl
@[simp] theorem clearHistory_cad (s : State) : (clearHistory s).cad = s.cad := rfl
@[simp] theorem clearHistory_phase (s : State) : (clearHistory s).phase = s.phase := rfl
@[simp] theorem clearHistory_heartbeat (s : State) : (clearHistory s).heartbeat = s.heartbeat := rfl
@[simp] theorem clearHistory_bytes (s : State) : (clearHistory s).bytes = s.bytes := rfl
@[simp] theorem clearHistory_tach (s : State) : (clearHistory s).tach = s.tach := rfl
@[simp] theorem clearHistory_async (s : State) : (clearHistory s).async = s.async := rfl
@[simp] theorem clearHistory_ret (s : State) : (clearHistory s).ret = s.ret := rfl

/-! ### `updateRunState` -/

@[simp] theorem updateRunState_par (s : State) : (updateRunState s).par = s.par := rfl
@[simp] theorem updateRunState_trace (s : State) : (updateRunState s).trace = s.trace := rfl
@[simp] theorem updateRunState_issued (s : State) : (updateRunState s).issued = s.issued := rfl
@[simp] theorem updateRunState_traceKind (s : State) : (updateRunState s).traceKind = s.traceKind := rfl
@[simp] theorem updateRunState_stored (s : State) : (updateRunState s).stored = s.stored := rfl
@[simp] theorem updateRunState_link (s : State) : (updateRunState s).link = s.link := rfl
@[simp] theorem updateRunState_temp (s : State) : (updateRunState s).temp = s.temp := rfl
@[simp] theorem updateRunState_sensorFault (s : State) : (updateRunState s).sensorFault = s.sensorFault := rfl
@[simp] theorem updateRunState_hist (s : State) : (updateRunState s).hist = s.hist := rfl
@[simp] theorem updateRunState_cooldown (s : State) : (updateRunState s).cooldown = s.cooldown := rfl
@[simp] theorem updateRunState_runState (s : State) : (updateRunState s).runState = nextRunState s := rfl
@[simp] theorem updateRunState_fanCount (s : State) : (updateRunState s).fanCount = s.fanCount := rfl
@[simp] theorem updateRunState_fanEn (s : State) : (updateRunState s).fanEn = s.fanEn := rfl
@[simp] theorem updateRunState_stuck (s : State) : (updateRunState s).stuck = s.stuck := rfl
@[simp] theorem updateRunState_stuckFan (s : State) : (updateRunState s).stuckFan = s.stuckFan := rfl
@[simp] theorem updateRunState_fault (s : State) : (updateRunState s).fault = s.fault := rfl
@[simp] theorem updateRunState_cfg (s : State) : (updateRunState s).cfg = s.cfg := rfl
@[simp] theorem updateRunState_loaded (s : State) : (updateRunState s).loaded = s.loaded := rfl
@[simp] theorem updateRunState_cad (s : State) : (updateRunState s).cad = s.cad := rfl
@[simp] theorem updateRunState_phase (s : State) : (updateRunState s).phase = s.phase := rfl
@[simp] theorem updateRunState_heartbeat (s : State) : (updateRunState s).heartbeat = s.heartbeat := rfl
@[simp] theorem updateRunState_bytes (s : State) : (updateRunState s).bytes = s.bytes := rfl
@[simp] theorem updateRunState_tach (s : State) : (updateRunState s).tach = s.tach := rfl
@[simp] theorem updateRunState_async (s : State) : (updateRunState s).async = s.async := rfl
@[simp] theorem updateRunState_ret (s : State) : (updateRunState s).ret = s.ret := rfl

/-! ### `driveOutputs` -/

@[simp] theorem driveOutputs_par (s : State) : (driveOutputs s).par = s.par := rfl
@[simp] theorem driveOutputs_trace (s : State) : (driveOutputs s).trace = s.trace := rfl
@[simp] theorem driveOutputs_issued (s : State) : (driveOutputs s).issued = s.issued := rfl
@[simp] theorem driveOutputs_traceKind (s : State) : (driveOutputs s).traceKind = s.traceKind := rfl
@[simp] theorem driveOutputs_stored (s : State) : (driveOutputs s).stored = s.stored := rfl
@[simp] theorem driveOutputs_link (s : State) : (driveOutputs s).link = s.link := rfl
@[simp] theorem driveOutputs_temp (s : State) : (driveOutputs s).temp = s.temp := rfl
@[simp] theorem driveOutputs_sensorFault (s : State) : (driveOutputs s).sensorFault = s.sensorFault := rfl
@[simp] theorem driveOutputs_hist (s : State) : (driveOutputs s).hist = s.hist := rfl
@[simp] theorem driveOutputs_cooldown (s : State) : (driveOutputs s).cooldown = s.cooldown := rfl
@[simp] theorem driveOutputs_runState (s : State) : (driveOutputs s).runState = s.runState := rfl
@[simp] theorem driveOutputs_fanCount (s : State) : (driveOutputs s).fanCount = s.fanCount := rfl
@[simp] theorem driveOutputs_fanEn (s : State) : (driveOutputs s).fanEn = driveFans s.par s.fanCount.toNat := rfl
@[simp] theorem driveOutputs_stuck (s : State) : (driveOutputs s).stuck = s.stuck := rfl
@[simp] theorem driveOutputs_stuckFan (s : State) : (driveOutputs s).stuckFan = s.stuckFan := rfl
@[simp] theorem driveOutputs_fault (s : State) : (driveOutputs s).fault = s.fault := rfl
@[simp] theorem driveOutputs_cfg (s : State) : (driveOutputs s).cfg = s.cfg := rfl
@[simp] theorem driveOutputs_loaded (s : State) : (driveOutputs s).loaded = s.loaded := rfl
@[simp] theorem driveOutputs_cad (s : State) : (driveOutputs s).cad = s.cad := rfl
@[simp] theorem driveOutputs_phase (s : State) : (driveOutputs s).phase = s.phase := rfl
@[simp] theorem driveOutputs_heartbeat (s : State) : (driveOutputs s).heartbeat = s.heartbeat := rfl
@[simp] theorem driveOutputs_bytes (s : State) : (driveOutputs s).bytes = s.bytes := rfl
@[simp] theorem driveOutputs_tach (s : State) : (driveOutputs s).tach = s.tach := rfl
@[simp] theorem driveOutputs_async (s : State) : (driveOutputs s).async = s.async := rfl
@[simp] theorem driveOutputs_ret (s : State) : (driveOutputs s).ret = s.ret := rfl

/-! ### `reportStuck` -/

@[simp] theorem reportStuck_par (s : State) : (reportStuck s).par = s.par := rfl
@[simp] theorem reportStuck_trace (s : State) : (reportStuck s).trace = s.trace := rfl
@[simp] theorem reportStuck_issued (s : State) : (reportStuck s).issued = s.issued := rfl
@[simp] theorem reportStuck_traceKind (s : State) : (reportStuck s).traceKind = s.traceKind := rfl
@[simp] theorem reportStuck_stored (s : State) : (reportStuck s).stored = s.stored := rfl
@[simp] theorem reportStuck_link (s : State) : (reportStuck s).link = s.link := rfl
@[simp] theorem reportStuck_temp (s : State) : (reportStuck s).temp = s.temp := rfl
@[simp] theorem reportStuck_sensorFault (s : State) : (reportStuck s).sensorFault = s.sensorFault := rfl
@[simp] theorem reportStuck_hist (s : State) : (reportStuck s).hist = s.hist := rfl
@[simp] theorem reportStuck_cooldown (s : State) : (reportStuck s).cooldown = s.cooldown := rfl
@[simp] theorem reportStuck_runState (s : State) : (reportStuck s).runState = s.runState := rfl
@[simp] theorem reportStuck_fanCount (s : State) : (reportStuck s).fanCount = s.fanCount := rfl
@[simp] theorem reportStuck_fanEn (s : State) : (reportStuck s).fanEn = s.fanEn := rfl
@[simp] theorem reportStuck_stuck (s : State) : (reportStuck s).stuck = s.stuck := rfl
@[simp] theorem reportStuck_stuckFan (s : State) : (reportStuck s).stuckFan = firstStuck s := rfl
@[simp] theorem reportStuck_fault (s : State) : (reportStuck s).fault = s.fault := rfl
@[simp] theorem reportStuck_cfg (s : State) : (reportStuck s).cfg = s.cfg := rfl
@[simp] theorem reportStuck_loaded (s : State) : (reportStuck s).loaded = s.loaded := rfl
@[simp] theorem reportStuck_cad (s : State) : (reportStuck s).cad = s.cad := rfl
@[simp] theorem reportStuck_phase (s : State) : (reportStuck s).phase = s.phase := rfl
@[simp] theorem reportStuck_heartbeat (s : State) : (reportStuck s).heartbeat = s.heartbeat := rfl
@[simp] theorem reportStuck_bytes (s : State) : (reportStuck s).bytes = s.bytes := rfl
@[simp] theorem reportStuck_tach (s : State) : (reportStuck s).tach = s.tach := rfl
@[simp] theorem reportStuck_async (s : State) : (reportStuck s).async = s.async := rfl
@[simp] theorem reportStuck_ret (s : State) : (reportStuck s).ret = s.ret := rfl

/-! ### `evalFault` -/

@[simp] theorem evalFault_par (s : State) : (evalFault s).par = s.par := rfl
@[simp] theorem evalFault_trace (s : State) : (evalFault s).trace = s.trace := rfl
@[simp] theorem evalFault_issued (s : State) : (evalFault s).issued = s.issued := rfl
@[simp] theorem evalFault_traceKind (s : State) : (evalFault s).traceKind = s.traceKind := rfl
@[simp] theorem evalFault_stored (s : State) : (evalFault s).stored = s.stored := rfl
@[simp] theorem evalFault_link (s : State) : (evalFault s).link = s.link := rfl
@[simp] theorem evalFault_temp (s : State) : (evalFault s).temp = s.temp := rfl
@[simp] theorem evalFault_sensorFault (s : State) : (evalFault s).sensorFault = s.sensorFault := rfl
@[simp] theorem evalFault_hist (s : State) : (evalFault s).hist = s.hist := rfl
@[simp] theorem evalFault_cooldown (s : State) : (evalFault s).cooldown = s.cooldown := rfl
@[simp] theorem evalFault_runState (s : State) : (evalFault s).runState = s.runState := rfl
@[simp] theorem evalFault_fanCount (s : State) : (evalFault s).fanCount = s.fanCount := rfl
@[simp] theorem evalFault_fanEn (s : State) : (evalFault s).fanEn = s.fanEn := rfl
@[simp] theorem evalFault_stuck (s : State) : (evalFault s).stuck = s.stuck := rfl
@[simp] theorem evalFault_stuckFan (s : State) : (evalFault s).stuckFan = s.stuckFan := rfl
@[simp] theorem evalFault_fault (s : State) : (evalFault s).fault = faultOf s.sensorFault s.stuckFan := rfl
@[simp] theorem evalFault_cfg (s : State) : (evalFault s).cfg = s.cfg := rfl
@[simp] theorem evalFault_loaded (s : State) : (evalFault s).loaded = s.loaded := rfl
@[simp] theorem evalFault_cad (s : State) : (evalFault s).cad = s.cad := rfl
@[simp] theorem evalFault_phase (s : State) : (evalFault s).phase = s.phase := rfl
@[simp] theorem evalFault_heartbeat (s : State) : (evalFault s).heartbeat = s.heartbeat := rfl
@[simp] theorem evalFault_bytes (s : State) : (evalFault s).bytes = s.bytes := rfl
@[simp] theorem evalFault_tach (s : State) : (evalFault s).tach = s.tach := rfl
@[simp] theorem evalFault_async (s : State) : (evalFault s).async = s.async := rfl
@[simp] theorem evalFault_ret (s : State) : (evalFault s).ret = s.ret := rfl

/-! ### `measureFans` -/

@[simp] theorem measureFans_par (s : State) : (measureFans s).par = s.par := rfl
@[simp] theorem measureFans_trace (s : State) : (measureFans s).trace = s.trace := rfl
@[simp] theorem measureFans_issued (s : State) : (measureFans s).issued = s.issued := rfl
@[simp] theorem measureFans_traceKind (s : State) : (measureFans s).traceKind = s.traceKind := rfl
@[simp] theorem measureFans_stored (s : State) : (measureFans s).stored = s.stored := rfl
@[simp] theorem measureFans_link (s : State) : (measureFans s).link = s.link := rfl
@[simp] theorem measureFans_temp (s : State) : (measureFans s).temp = s.temp := rfl
@[simp] theorem measureFans_sensorFault (s : State) : (measureFans s).sensorFault = s.sensorFault := rfl
@[simp] theorem measureFans_hist (s : State) : (measureFans s).hist = s.hist := rfl
@[simp] theorem measureFans_cooldown (s : State) : (measureFans s).cooldown = s.cooldown := rfl
@[simp] theorem measureFans_runState (s : State) : (measureFans s).runState = s.runState := rfl
@[simp] theorem measureFans_fanCount (s : State) : (measureFans s).fanCount = s.fanCount := rfl
@[simp] theorem measureFans_fanEn (s : State) : (measureFans s).fanEn = s.fanEn := rfl
@[simp] theorem measureFans_stuckFan (s : State) : (measureFans s).stuckFan = s.stuckFan := rfl
@[simp] theorem measureFans_fault (s : State) : (measureFans s).fault = s.fault := rfl
@[simp] theorem measureFans_cfg (s : State) : (measureFans s).cfg = s.cfg := rfl
@[simp] theorem measureFans_loaded (s : State) : (measureFans s).loaded = s.loaded := rfl
@[simp] theorem measureFans_phase (s : State) : (measureFans s).phase = s.phase := rfl
@[simp] theorem measureFans_heartbeat (s : State) : (measureFans s).heartbeat = s.heartbeat := rfl
@[simp] theorem measureFans_bytes (s : State) : (measureFans s).bytes = s.bytes := rfl
@[simp] theorem measureFans_async (s : State) : (measureFans s).async = s.async := rfl
@[simp] theorem measureFans_ret (s : State) : (measureFans s).ret = s.ret := rfl

/-! ### `resetMain` -/

@[simp] theorem resetMain_par (s : State) : (resetMain s).par = s.par := rfl
@[simp] theorem resetMain_trace (s : State) : (resetMain s).trace = s.trace := rfl
@[simp] theorem resetMain_issued (s : State) : (resetMain s).issued = s.issued := rfl
@[simp] theorem resetMain_traceKind (s : State) : (resetMain s).traceKind = s.traceKind := rfl
@[simp] theorem resetMain_stored (s : State) : (resetMain s).stored = s.stored := rfl
@[simp] theorem resetMain_temp (s : State) : (resetMain s).temp = 0 := rfl
@[simp] theorem resetMain_sensorFault (s : State) : (resetMain s).sensorFault = false := rfl
@[simp] theorem resetMain_hist (s : State) : (resetMain s).hist = [] := rfl
@[simp] theorem resetMain_cooldown (s : State) : (resetMain s).cooldown = 0 := rfl
@[simp] theorem resetMain_runState (s : State) : (resetMain s).runState = .off := rfl
@[simp] theorem resetMain_fanCount (s : State) : (resetMain s).fanCount = 0 := rfl
@[simp] theorem resetMain_fanEn (s : State) : (resetMain s).fanEn = List.replicate s.par.fanAmount false := rfl
@[simp] theorem resetMain_stuck (s : State) : (resetMain s).stuck = List.replicate s.par.fanAmount 0 := rfl
@[simp] theorem resetMain_stuckFan (s : State) : (resetMain s).stuckFan = none := rfl
@[simp] theorem resetMain_fault (s : State) : (resetMain s).fault = .none := rfl
@[simp] theorem resetMain_cfg (s : State) : (resetMain s).cfg = freeThresholds s.link.free := rfl
@[simp] theorem resetMain_loaded (s : State) : (resetMain s).loaded = false := rfl
@[simp] theorem resetMain_cad (s : State) : (resetMain s).cad = { ramp := 0, spike := 0, stuck := 0, full := 0 } := rfl
@[simp] theorem resetMain_phase (s : State) : (resetMain s).phase = .idle := rfl
@[simp] theorem resetMain_heartbeat (s : State) : (resetMain s).heartbeat = false := rfl
@[simp] theorem resetMain_bytes (s : State) : (resetMain s).bytes = s.bytes := rfl
@[simp] theorem resetMain_tach (s : State) : (resetMain s).tach = s.tach := rfl
@[simp] theorem resetMain_async (s : State) : (resetMain s).async = s.async := rfl
@[simp] theorem resetMain_ret (s : State) : (resetMain s).ret = s.ret := rfl

/-! ### `acceptEvent` -/

@[simp] theorem acceptEvent_par (s : State) (e : Event) (rest : List Event) : (acceptEvent s e rest).par = s.par := rfl
@[simp] theorem acceptEvent_trace (s : State) (e : Event) (rest : List Event) : (acceptEvent s e rest).trace = rest := rfl
@[simp] theorem acceptEvent_issued (s : State) (e : Event) (rest : List Event) : (acceptEvent s e rest).issued = s.issued := rfl
@[simp] theorem acceptEvent_traceKind (s : State) (e : Event) (rest : List Event) : (acceptEvent s e rest).traceKind = s.traceKind := rfl
@[simp] theorem acceptEvent_stored (s : State) (e : Event) (rest : List Event) : (acceptEvent s e rest).stored = e.inputs.stored.getD s.stored := rfl
@[simp] theorem acceptEvent_temp (s : State) (e : Event) (rest : List Event) : (acceptEvent s e rest).temp = s.temp := rfl
@[simp] theorem acceptEvent_sensorFault (s : State) (e : Event) (rest : List Event) : (acceptEvent s e rest).sensorFault = s.sensorFault := rfl
@[simp] theorem acceptEvent_hist (s : State) (e : Event) (rest : List Event) : (acceptEvent s e rest).hist = s.hist := rfl
@[simp] theorem acceptEvent_cooldown (s : State) (e : Event) (rest : List Event) : (acceptEvent s e rest).cooldown = s.cooldown := rfl
@[simp] theorem acceptEvent_runState (s : State) (e : Event) (rest : List Event) : (acceptEvent s e rest).runState = s.runState := rfl
@[simp] theorem acceptEvent_fanCount (s : State) (e : Event) (rest : List Event) : (acceptEvent s e rest).fanCount = s.fanCount := rfl
@[simp] theorem acceptEvent_fanEn (s : State) (e : Event) (rest : List Event) : (acceptEvent s e rest).fanEn = s.fanEn := rfl
@[simp] theorem acceptEvent_stuck (s : State) (e : Event) (rest : List Event) : (acceptEvent s e rest).stuck = s.stuck := rfl
@[simp] theorem acceptEvent_stuckFan (s : State) (e : Event) (rest : List Event) : (acceptEvent s e rest).stuckFan = s.stuckFan := rfl
@[simp] theorem acceptEvent_fault (s : State) (e : Event) (rest : List Event) : (acceptEvent s e rest).fault = s.fault := rfl
@[simp] theorem acceptEvent_cfg (s : State) (e : Event) (rest : List Event) : (acceptEvent s e rest).cfg = s.cfg := rfl
@[simp] theorem acceptEvent_loaded (s : State) (e : Event) (rest : List Event) : (acceptEvent s e rest).loaded = s.loaded := rfl
@[simp] theorem acceptEvent_cad (s : State) (e : Event) (rest : List Event) : (acceptEvent s e rest).cad = s.cad := rfl
@[simp] theorem acceptEvent_phase (s : State) (e : Event) (rest : List Event) : (acceptEvent s e rest).phase = s.phase := rfl
@[simp] theorem acceptEvent_heartbeat (s : State) (e : Event) (rest : List Event) : (acceptEvent s e rest).heartbeat = s.heartbeat := rfl
@[simp] theorem acceptEvent_bytes (s : State) (e : Event) (rest : List Event) : (acceptEvent s e rest).bytes = s.bytes := rfl
@[simp] theorem acceptEvent_async (s : State) (e : Event) (rest : List Event) : (acceptEvent s e rest).async = e.inputs.async := rfl
@[simp] theorem acceptEvent_ret (s : State) (e : Event) (rest : List Event) : (acceptEvent s e rest).ret = s.ret := rfl

/-! ### `abortCall` -/

@[simp] theorem abortCall_sat (l : Link) : (abortCall l).sat = l.sat := rfl
@[simp] theorem abortCall_clk (l : Link) : (abortCall l).clk = l.clk := rfl
@[simp] theorem abortCall_raw (l : Link) : (abortCall l).raw = none := rfl
@[simp] theorem abortCall_adc (l : Link) : (abortCall l).adc = l.adc := rfl
@[simp] theorem abortCall_line (l : Link) : (abortCall l).line = l.line := rfl
@[simp] theorem abortCall_free (l : Link) : (abortCall l).free = l.free := rfl

/-! ### `finishCall` -/

@[simp] theorem finishCall_sat (l : Link) (v : Sample) : (finishCall l v).sat = l.sat := rfl
@[simp] theorem finishCall_clk (l : Link) (v : Sample) : (finishCall l v).clk = l.clk := rfl
@[simp] theorem finishCall_raw (l : Link) (v : Sample) : (finishCall l v).raw = some v := rfl
@[simp] theorem finishCall_adc (l : Link) (v : Sample) : (finishCall l v).adc = l.adc := rfl
@[simp] theorem finishCall_line (l : Link) (v : Sample) : (finishCall l v).line = l.line := rfl
@[simp] theorem finishCall_free (l : Link) (v : Sample) : (finishCall l v).free = l.free := rfl

/-! ### `setDPhase` -/

@[simp] theorem setDPhase_sat (p : DPhase) (l : Link) : (setDPhase p l).sat = l.sat := rfl
@[simp] theorem setDPhase_clk (p : DPhase) (l : Link) : (setDPhase p l).clk = l.clk := rfl
@[simp] theorem setDPhase_raw (p : DPhase) (l : Link) : (setDPhase p l).raw = l.raw := rfl
@[simp] theorem setDPhase_adc (p : DPhase) (l : Link) : (setDPhase p l).adc = l.adc := rfl
@[simp] theorem setDPhase_line (p : DPhase) (l : Link) : (setDPhase p l).line = l.line := rfl
@[simp] theorem setDPhase_free (p : DPhase) (l : Link) : (setDPhase p l).free = l.free := rfl

/-! ### `clearPayload` -/

@[simp] theorem clearPayload_sat (l : Link) : (clearPayload l).sat = l.sat := rfl
@[simp] theorem clearPayload_clk (l : Link) : (clearPayload l).clk = l.clk := rfl
@[simp] theorem clearPayload_raw (l : Link) : (clearPayload l).raw = l.raw := rfl
@[simp] theorem clearPayload_adc (l : Link) : (clearPayload l).adc = l.adc := rfl
@[simp] theorem clearPayload_line (l : Link) : (clearPayload l).line = l.line := rfl
@[simp] theorem clearPayload_free (l : Link) : (clearPayload l).free = l.free := rfl

/-! ### `waitSettle` -/

@[simp] theorem waitSettle_sat (l : Link) : (waitSettle l).sat = l.sat := rfl
@[simp] theorem waitSettle_clk (l : Link) : (waitSettle l).clk = l.clk := rfl
@[simp] theorem waitSettle_dec (l : Link) : (waitSettle l).dec = l.dec := rfl
@[simp] theorem waitSettle_raw (l : Link) : (waitSettle l).raw = l.raw := rfl
@[simp] theorem waitSettle_adc (l : Link) : (waitSettle l).adc = l.adc := rfl
@[simp] theorem waitSettle_line (l : Link) : (waitSettle l).line = l.line := rfl
@[simp] theorem waitSettle_free (l : Link) : (waitSettle l).free = l.free := rfl

/-! ### `resetSatellite` -/

@[simp] theorem resetSatellite_clk (l : Link) : (resetSatellite l).clk = l.clk := rfl
@[simp] theorem resetSatellite_dec (l : Link) : (resetSatellite l).dec = l.dec := rfl
@[simp] theorem resetSatellite_raw (l : Link) : (resetSatellite l).raw = l.raw := rfl
@[simp] theorem resetSatellite_adc (l : Link) : (resetSatellite l).adc = l.adc := rfl
@[simp] theorem resetSatellite_line (l : Link) : (resetSatellite l).line = l.line := rfl
@[simp] theorem resetSatellite_free (l : Link) : (resetSatellite l).free = l.free + 1 := rfl

/-! ### `takeBit` -/

@[simp] theorem takeBit_sat (c : Literals) (n : Nat) (l : Link) : (takeBit c n l).sat = l.sat := rfl
@[simp] theorem takeBit_clk (c : Literals) (n : Nat) (l : Link) : (takeBit c n l).clk = l.clk := rfl
@[simp] theorem takeBit_raw (c : Literals) (n : Nat) (l : Link) : (takeBit c n l).raw = l.raw := rfl
@[simp] theorem takeBit_adc (c : Literals) (n : Nat) (l : Link) : (takeBit c n l).adc = l.adc := rfl
@[simp] theorem takeBit_line (c : Literals) (n : Nat) (l : Link) : (takeBit c n l).line = l.line := rfl
@[simp] theorem takeBit_free (c : Literals) (n : Nat) (l : Link) : (takeBit c n l).free = l.free := rfl

@[simp] theorem abortCall_dphase (l : Link) : (abortCall l).dec.dphase = .idle := rfl
@[simp] theorem finishCall_dphase (l : Link) (v : Sample) : (finishCall l v).dec.dphase = .idle := rfl
@[simp] theorem setDPhase_dphase (p : DPhase) (l : Link) : (setDPhase p l).dec.dphase = p := rfl
@[simp] theorem takeBit_dphase (c : Literals) (n : Nat) (l : Link) : (takeBit c n l).dec.dphase = l.dec.dphase := rfl
@[simp] theorem clearPayload_dphase (l : Link) : (clearPayload l).dec.dphase = l.dec.dphase := rfl
@[simp] theorem endCall_dphase (m : DecodeResult) (l : Link) : (endCall m l).dec.dphase = .idle := by cases m <;> rfl
@[simp] theorem endCall_sat (m : DecodeResult) (l : Link) : (endCall m l).sat = l.sat := by cases m <;> rfl
@[simp] theorem endCall_clk (m : DecodeResult) (l : Link) : (endCall m l).clk = l.clk := by cases m <;> rfl
@[simp] theorem endCall_adc (m : DecodeResult) (l : Link) : (endCall m l).adc = l.adc := by cases m <;> rfl
@[simp] theorem endCall_line (m : DecodeResult) (l : Link) : (endCall m l).line = l.line := by cases m <;> rfl
@[simp] theorem endCall_free (m : DecodeResult) (l : Link) : (endCall m l).free = l.free := by cases m <;> rfl
@[simp] theorem resetMain_sat (s : State) : (resetMain s).link.sat = s.link.sat := rfl
@[simp] theorem resetMain_dphase (s : State) : (resetMain s).link.dec.dphase = .idle := rfl
@[simp] theorem resetMain_raw (s : State) : (resetMain s).link.raw = none := rfl
@[simp] theorem acceptEvent_sat (s : State) (e : Event) (rest : List Event) :
    (acceptEvent s e rest).link.sat = s.link.sat := rfl
@[simp] theorem acceptEvent_dec (s : State) (e : Event) (rest : List Event) :
    (acceptEvent s e rest).link.dec = s.link.dec := rfl

end Sys2Proof.Machine
end

