-- ==== Sys2Proof/Tests/Slice0.lean ====
section
/-! SUPPORT. The model's own tests: ill-formed terms refused, encodings written out from the spec, one-step vectors of
spec/95_test_vectors.md (its number beside each), and for every statement with hypotheses a state that meets them. -/

namespace Sys2Proof.Tests

open Sys2Proof Sys2Proof.Machine

/-! ### WellFormed -/

theorem test_illFormed_noSuchField : (Instr.cfgWrite 5 30).wellFormed = false := by decide
theorem test_illFormed_erasedValue : (Instr.cfgWrite 0 0xFF).wellFormed = false := by decide
theorem test_illFormed_reservedA : (Instr.eventReservedA 0).wellFormed = false := by decide
theorem test_illFormed_reservedB : (Instr.eventReservedB 0).wellFormed = false := by decide
theorem test_wellFormed_lastField : (Instr.cfgWrite 4 0xFE).wellFormed = true := by decide

/-! ### Encodings: `code ++ index ++ value` (R103), one word for every EVENT row -/

theorem test_decode_resetMain : decodeTableWord 16 0b00000_000_00000000 = some (.reset .main) := by decide
theorem test_decode_resetSat : decodeTableWord 16 0b00000_001_00000000 = some (.reset .sat) := by decide
theorem test_decode_resetOther : decodeTableWord 16 0b00000_010_00000000 = none := by decide
theorem test_decode_satStep : decodeTableWord 16 0b00001_000_00000000 = some .satStep := by decide
theorem test_decode_linkStep : decodeTableWord 16 0b00010_000_00000000 = some (.linkStep false) := by decide
theorem test_decode_linkStepGlitch :
    decodeTableWord 32 0b0000000000000001_00010_000_00000000 = some (.linkStep true) := by decide
theorem test_decode_linkRun : decodeTableWord 16 0b00011_000_00000000 = some (.linkRun .search) := by decide
theorem test_decode_linkRunPayload :
    decodeTableWord 32 0b0000000000000001_00011_000_00000000 = some (.linkRun .payload) := by decide
theorem test_decode_linkSync : decodeTableWord 16 0b00100_000_00000000 = some .linkSync := by decide
theorem test_decode_linkPayload : decodeTableWord 16 0b00101_000_00000000 = some .linkPayload := by decide
theorem test_decode_linkDecode : decodeTableWord 16 0b00110_000_00000000 = some .linkDecode := by decide
theorem test_decode_tfConvert :
    decodeTableWord 32 0b000000_0010101111_00111_000_00000000 = some (.tfConvert 175) := by decide
theorem test_decode_tfUpdate :
    decodeTableWord 32 0b00000_1_0101010101_01000_000_00000000 = some (.tfUpdate (some 341)) := by decide
theorem test_decode_tfUpdateNoMessage :
    decodeTableWord 16 0b01000_000_00000000 = some (.tfUpdate none) := by decide
theorem test_decode_sdClear : decodeTableWord 16 0b01001_000_00000000 = some .sdClear := by decide
theorem test_decode_sdTick : decodeTableWord 16 0b01010_000_00000000 = some .sdTick := by decide
theorem test_decode_frState : decodeTableWord 16 0b01011_000_00000000 = some .frState := by decide
theorem test_decode_frRamp : decodeTableWord 16 0b01100_000_00000000 = some .frRamp := by decide
theorem test_decode_frOut : decodeTableWord 16 0b01101_000_00000000 = some .frOut := by decide
theorem test_decode_tmGate : decodeTableWord 16 0b01110_000_00000000 = some .tmGate := by decide
theorem test_decode_tmMeasure : decodeTableWord 16 0b01111_000_00000000 = some .tmMeasure := by decide
theorem test_decode_tmReport : decodeTableWord 16 0b10000_000_00000000 = some .tmReport := by decide
theorem test_decode_faEval : decodeTableWord 16 0b10001_000_00000000 = some .faEval := by decide
theorem test_decode_timerTick : decodeTableWord 16 0b10010_000_00000000 = some .timerTick := by decide
theorem test_decode_ctrlTick : decodeTableWord 16 0b10011_000_00000000 = some .ctrlTick := by decide
/-- V-EVT-6: `CFG.WRITE on 33`. -/
theorem test_decode_cfgWrite : decodeTableWord 16 0b10100_001_00100001 = some (.cfgWrite 1 33) := by decide
theorem test_decode_cfgLoad : decodeTableWord 16 0b10101_000_00000000 = some .cfgLoad := by decide
theorem test_decode_reservedA : decodeTableWord 16 0b10111_000_00000001 = some (.eventReservedA 0x801) := by decide
theorem test_decode_reservedB : decodeTableWord 16 0b11000_000_00000000 = some (.eventReservedB 0) := by decide
/-- The words section 11 of 95_test_vectors.md gives as refused (R103). -/
theorem test_decode_badWords :
    decodeTableWord 16 0x9001 = none ∧ decodeTableWord 16 0x9900 = none ∧ decodeTableWord 16 0x0200 = none := by decide

/-! ### Encodings: level strings (R91, R92, R95, R147), `p` the inverse of the run before -/

def idleCtx : LineCtx := { lit := Literals.given, dphase := .idle, nonSync := 0, prev := false }
def searchCtx (n : Nat) : LineCtx := { lit := Literals.given, dphase := .search, nonSync := n, prev := false }
def payloadCtx : LineCtx := { lit := Literals.given, dphase := .payload, nonSync := 0, prev := true }

theorem test_decode_s3 : decode (searchCtx 20) (.levels [true, true, true]) = some .s3 := by decide
theorem test_decode_b1 : decode idleCtx (.levels [true, true]) = some .b1 := by decide
theorem test_decode_b0 : decode payloadCtx (.levels [false]) = some .b0 := by decide
theorem test_decode_runPayload3 : decode payloadCtx (.levels [false, false, false]) = some .runPayload3 := by decide
theorem test_decode_runLong : decode (searchCtx 0) (.levels [true, true, true, true]) = some .runLong := by decide
theorem test_decode_runNonsync21 :
    decode (searchCtx 20) (.levels [true]) = some (.runNonsync21 false) ∧
    decode (searchCtx 20) (.levels [true, true]) = some (.runNonsync21 true) ∧
    decode (searchCtx 19) (.levels [true, true]) = some .b1 := by decide
/-- V-ENC-8: `Levels(0x0F3, L)` is `HHHLLHHLHLLHHLLHHLH`. -/
theorem test_decode_msg : decode idleCtx (.levels
    [true, true, true, false, false, true, true, false, true, false, false, true, true, false, false, true, true, false,
     true]) = some (.msg 0x0F3) := by decide
/-- A level string that starts with the level of the run before it (R91), and one of ten runs (R92). -/
theorem test_decode_badLevels :
    decode idleCtx (.levels [false]) = none ∧ decode idleCtx (.levels []) = none ∧
    decode idleCtx (.levels [true, true, true, false, true, false, true, false, true, false, true, false]) = none := by
  decide
/-- V-ENC-1: `Levels(0, L)` is `HHHLHLHLHLHLH`. -/
theorem test_encode_msg : encode idleCtx (.msg 0) = .levels
    [true, true, true, false, true, false, true, false, true, false, true, false, true] := by decide

/-- V-EVT-11: the packed forms of R100. -/
theorem test_packed : packRaw (some 341) = 0x555 ∧ packRaw none = 0 ∧ FaultCode.sensor.pack = 0x100 ∧
    (FaultCode.fan 3).pack = 0x203 := by decide

/-! ### One step each -/

/-- The next state, if there is one. -/
def nextOf (o : Host.Outcome State Machine.Fault Refusal) : Option State :=
  match o with
  | .next t => some t
  | .fault _ => none
  | .refused _ => none

/-- The reason of a refusal. -/
def refusalOf (o : Host.Outcome State Machine.Fault Refusal) : Option Refusal :=
  match o with
  | .refused r => some r
  | .next _ => none
  | .fault _ => none

/-- The reset state with the default configuration loaded. -/
def ready : State := { State.reset with cfg := Params.testSet.dflt, loaded := true }

/-- Satellite at `(r, k)`, level `d`, sample `v`; every ADC draw gives `v`. -/
def atPos (r : BitVec 4) (k : BitVec 2) (d : Bool) (v : Sample) : State :=
  { ready with link := { ready.link with
      sat := { r := r, k := k, d := d, sample := v }, adc := { level := v, draws := [] } } }

/-- A decode call under way. -/
def inCall (p : DPhase) (nonSync : BitVec 5) (bitIndex : BitVec 4) (value : Sample) : State :=
  { ready with link := { ready.link with
      dec := { dphase := p, level := true, count := 1, nonSync := nonSync, bitIndex := bitIndex, value := value } } }

/-- The line shows these levels, then the fault-free line. -/
def shown (s : State) (ls : List Bool) : State := { s with link := { s.link with line := ls.map showLevel } }

/-- V-SAT-1, event 4: run 1 draws its sample, whose bit 0 is 1. -/
theorem test_satStep_draws : (nextOf (exec .satStep { atPos 1 0 true 0 with link := { (atPos 1 0 true 0).link with
    adc := { level := 0, draws := [1, 2] } } })).map (fun t => (t.link.sat, t.link.adc)) =
    some ({ r := 1, k := 1, d := false, sample := 1 }, { level := 1, draws := [2] }) := by decide
/-- V-SAT-1, event 14: run 10 completes and the satellite restarts at run 0. -/
theorem test_satStep_wraps : (nextOf (exec .satStep (atPos 10 0 false 1))).map (·.link.sat) =
    some { r := 0, k := 0, d := true, sample := 1 } := by decide

theorem test_linkStep_glitch : (nextOf (exec (.linkStep true) ready)).map (fun t => (t.ret, t.link.clk, t.link.sat.d)) =
    some (.level false, true, true) := by decide
/-- R143 worked example: `level = H`, the line gives `H, L`. -/
theorem test_linkRun : (nextOf (exec (.linkRun .search) (shown (inCall .search 0 0 0) [true, false]))).map
    (fun t => (t.ret, t.link.dec.level)) = some (.run (.length 2), false) := by decide
/-- R144: in the payload the third equal sample is too long. -/
theorem test_linkRun_tooLong : (nextOf (exec (.linkRun .payload) (shown (inCall .payload 0 0 0) [true, true]))).map
    (fun t => (t.ret, t.link.dec.count)) = some (.run .tooLong, 3) := by decide
/-- V-LINK-12: `HLHHHH`, the reference sample already taken. -/
theorem test_linkSync : (nextOf (exec .linkSync (shown (inCall .search 7 0 0) [false, true, true, true, true]))).map
    (fun t => (t.ret, t.link.dec.nonSync)) = some (.sync (.noMessage .searchRunTooLong), 2) := by decide +kernel
/-- R148 worked example: runs `[2,1,2,1,2,1,2,1,2,1]`. -/
theorem test_linkPayload : (nextOf (exec .linkPayload (shown (inCall .payload 0 0 3)
    [true, false, true, true, false, true, true, false, true, true, false, true, true, false, true]))).map
    (fun t => (t.ret, t.link.dec.value, t.link.line)) = some (.decode (.value 0x155), 0x155, []) := by decide +kernel
/-- V-LINK-3. -/
theorem test_linkDecode : (nextOf (exec .linkDecode (atPos 0 0 false 0x155))).map
    (fun t => (t.link.raw, t.link.sat.r, t.link.sat.k)) = some (some 341, 0, 1) := by decide +kernel
/-- V-LINK-13: `HHHLHHLLL`. -/
theorem test_linkDecode_payloadTooLong : (nextOf (exec .linkDecode (shown ready
    [true, true, true, false, true, true, false, false, false, true]))).map (fun t => (t.ret, t.link.line.length)) =
    some (.decode (.noMessage .payloadRunTooLong), 1) := by decide +kernel

/-- V-SAT-1, events 1 to 3. -/
theorem test_s3_emitted : (nextOf (exec .s3 ready)).map (·.link.sat) =
    some { r := 1, k := 0, d := true, sample := 0 } := by decide
theorem test_s3_searching : (nextOf (exec .s3 (inCall .search 20 5 7))).map (·.link.dec) =
    some { dphase := .payload, level := false, count := 3, nonSync := 20, bitIndex := 0, value := 0 } := by decide
theorem test_b1_payload : (nextOf (exec .b1 (inCall .payload 0 9 5))).map (fun t => (t.link.raw, t.link.dec.dphase)) =
    some (some 0x205, .idle) := by decide
theorem test_b0_searching : (nextOf (exec .b0 (inCall .search 19 0 0))).map (fun t => (t.link.dec.nonSync, t.link.raw)) =
    some (20, none) := by decide
theorem test_runPayload3 : (nextOf (exec .runPayload3 (inCall .payload 0 4 0))).map (·.ret) =
    some (.decode (.noMessage .payloadRunTooLong)) := by decide
theorem test_runLong : (nextOf (exec .runLong (inCall .search 0 0 0))).map (fun t => (t.ret, t.link.clk)) =
    some (.decode (.noMessage .searchRunTooLong), true) := by decide
theorem test_runNonsync21 : (nextOf (exec (.runNonsync21 true) (inCall .search 20 0 0))).map (·.ret) =
    some (.decode (.noMessage .syncFailure)) := by decide
/-- V-SAT-3: `ENCODE(0x155, L)` leaves `d = H`. -/
theorem test_msg_emitted : (nextOf (exec (.msg 0x155) ready)).map (·.link.sat) =
    some { r := 0, k := 0, d := true, sample := 0x155 } := by decide +kernel
theorem test_msg_searching : (nextOf (exec (.msg 0x09A) (inCall .search 3 0 0))).map (·.link.raw) =
    some (some 154) := by decide +kernel

/-- V-TF-1 at 151: truncation is toward zero. -/
theorem test_tfConvert : (nextOf (exec (.tfConvert 151) ready)).map (·.ret) = some (.temp 24) := by decide
theorem test_tfConvert_low : (nextOf (exec (.tfConvert 0) ready)).map (·.ret) = some (.temp (-50)) := by decide
/-- V-TF-4b: a difference of 4 moves one step. -/
theorem test_tfUpdate : (nextOf (exec (.tfUpdate (some 173)) { ready with temp := 30 })).map (·.temp) = some 31 := by
  decide
/-- V-TF-2. -/
theorem test_tfUpdate_noMessage :
    (nextOf (exec (.tfUpdate none) { ready with temp := 30, hist := [31, 30, 30], cooldown := 4 })).map
      (fun t => (t.temp, t.sensorFault, t.hist, t.cooldown)) = some (0, true, [], 4) := by decide

/-- V-SD-17. -/
theorem test_sdClear : (nextOf (exec .sdClear { ready with hist := [31, 30, 30], cooldown := 4 })).map
    (fun t => (t.hist, t.cooldown)) = some ([], 4) := by decide
/-- V-SD-1 and V-SD-2. -/
theorem test_sdTick_spike :
    (nextOf (exec .sdTick { ready with
      cad := { ready.cad with spike := 1200 }, temp := 25, hist := [20, 20, 20, 20, 20] })).map
      (fun t => (t.cad.spike, t.cooldown, t.hist)) = some (0, 10, []) := by decide
theorem test_sdTick_noSpike :
    (nextOf (exec .sdTick { ready with
      cad := { ready.cad with spike := 1200 }, temp := 24, hist := [20, 20, 20, 20, 20] })).map
      (fun t => (t.cooldown, t.hist)) = some (0, [24, 20, 20, 20, 20, 20]) := by decide

/-- V-FR-3: the dead zone retains SPIKE; `T = offThreshold` turns OFF. -/
theorem test_frState_deadZone :
    (nextOf (exec .frState { ready with temp := 30, runState := .spike })).map (·.runState) = some .spike := by decide
theorem test_frState_off :
    (nextOf (exec .frState { ready with temp := 29, runState := .on })).map (·.runState) = some .off := by decide
/-- V-FR-6 and V-FR-9a. -/
theorem test_frRamp_up :
    (nextOf (exec .frRamp { ready with
      runState := .on, fanCount := 2, cad := { ramp := 20, spike := 7, stuck := 8, full := 20 } })).map
      (fun t => (t.fanCount, t.cad)) = some (3, { ramp := 0, spike := 7, stuck := 8, full := 0 }) := by decide
theorem test_frRamp_atMaximum :
    (nextOf (exec .frRamp { ready with
      runState := .on, fanCount := 4, cad := { ready.cad with ramp := 20, full := 500 } })).map
      (fun t => (t.fanCount, t.cad.full)) = some (4, 500) := by decide
/-- R208 worked example: FAN_ORDER = [2,0,3,1], three fans. -/
theorem test_frOut : (nextOf (exec .frOut { ready with fanCount := 3 })).map (·.fanEn) =
    some [true, false, true, true] := by decide

/-- R226 worked example. -/
theorem test_tmGate :
    (nextOf (exec .tmGate { ready with fanCount := 4, cad := { ready.cad with full := 40 } })).map (·.ret) =
      some (.gate true) ∧
    (nextOf (exec .tmGate { ready with fanCount := 4, cad := { ready.cad with full := 39 } })).map (·.ret) =
      some (.gate false) := by decide
/-- V-TM-3: early stop after the second re-sample. -/
theorem test_tmMeasure_earlyStop :
    (nextOf (exec .tmMeasure { ready with
      cad := { ready.cad with stuck := 20 }, stuck := [0, 2, 0, 1]
      tach := { level := 0, draws := [0b0101, 0b0110, 0b1010, 0b0000, 0b1111] } })).map
      (fun t => (t.stuck, t.tach.draws)) = some ([0, 0, 0, 0], [0b0000, 0b1111]) := by decide +kernel
/-- V-TM-4: fan 1 saturates. -/
theorem test_tmMeasure_saturates :
    (nextOf (exec .tmMeasure { ready with
      cad := { ready.cad with stuck := 20 }, stuck := [0, 2, 0, 1]
      tach := { level := 0, draws := [0b0101, 0b0100, 0b0101, 0b0100, 0b0101] } })).map
      (fun t => (t.cad.stuck, t.stuck)) = some (0, [0, 3, 1, 2]) := by decide +kernel
/-- V-TM-11. -/
theorem test_tmReport :
    (nextOf (exec .tmReport { ready with stuck := [0, 3, 1, 3] })).map (·.stuckFan) = some (some 1) ∧
    (nextOf (exec .tmReport { ready with stuck := [2, 2, 2, 2] })).map (·.stuckFan) = some none := by decide
/-- V-FA-2 and V-FA-4. -/
theorem test_faEval :
    (nextOf (exec .faEval { ready with stuckFan := some 2 })).map (·.fault) = some (.fan 2) ∧
    (nextOf (exec .faEval { ready with stuckFan := some 2, sensorFault := true })).map (·.fault) = some .sensor := by
  decide

/-- V-TT-3: saturation. -/
theorem test_timerTick :
    (nextOf (exec .timerTick { ready with cad := { ramp := 65534, spike := 65535, stuck := 0, full := 65535 } })).map
      (·.cad) = some { ramp := 65535, spike := 65535, stuck := 1, full := 65535 } := by decide
/-- P1 row 4. -/
theorem test_ctrlTick :
    (nextOf (exec .ctrlTick (atPos 0 0 false 170))).map
      (fun t => (t.temp, t.runState, t.fault, t.fanCount, t.heartbeat)) = some (32, .on, .none, 0, true) := by
  decide +kernel
/-- V-RST-4: the first control tick on a dead line. -/
theorem test_ctrlTick_deadLine :
    (nextOf (exec .ctrlTick (shown ready [false, false, false, false]))).map
      (fun t => (t.temp, t.sensorFault, t.fault, t.link.sat.r, t.link.sat.k)) = some (0, true, .sensor, 2, 0) := by
  decide +kernel
/-- V-CFG-1 and V-CFG-3. -/
theorem test_cfgWrite_off :
    (nextOf (exec (.cfgWrite 0 32) ready)).map (fun t => (t.cfg, t.bytes)) =
      some ({ Params.testSet.dflt with off := 32, on := 33 }, [(0, 32), (1, 33)]) := by decide
theorem test_cfgWrite_on :
    (nextOf (exec (.cfgWrite 1 29) ready)).map (fun t => (t.cfg, t.bytes)) =
      some ({ Params.testSet.dflt with off := 28, on := 29 }, [(0, 28), (1, 29)]) := by decide
/-- V-CFG-13: R265 worked example, and stored thresholds that cross. -/
theorem test_cfgLoad :
    (nextOf (exec .cfgLoad { State.reset with bytes := [(2, 7)] })).map (·.cfg) =
      some { Params.testSet.dflt with width := 7 } := by decide
theorem test_cfgLoad_cross :
    refusalOf (exec .cfgLoad { State.reset with bytes := [(0, 40)] }) = some .loadedThresholdsCross := by decide
/-- V-CFG-13 as an event of a trace from reset: `CFG.LOAD FF FF 07 FF FF`. -/
theorem test_cfgLoad_stored :
    (nextOf (step { State.reset with trace := [{ code := codeOfBits 16 0xA800, inputs := { Inputs.none with
      stored := some { off := 0xFF, on := 0xFF, width := 7, height := 0xFF, reset := 0xFF } } }] })).map
      (fun t => (t.cfg, t.loaded)) = some ({ off := 29, on := 32, width := 7, height := 5, reset := 10 }, true) := by
  decide +kernel
theorem test_resetMain :
    (nextOf (exec (.reset .main) { ready with temp := 20, bytes := [(0, 30)] })).map
      (fun t => (t.temp, t.loaded, t.bytes)) = some (0, false, [(0, 30)]) := by decide
theorem test_resetSat : (nextOf (exec (.reset .sat) (atPos 5 1 true 3))).map (fun t => (t.link.sat.r, t.link.sat.d)) =
    some (0, false) := by decide
theorem test_reserved :
    refusalOf (exec (.eventReservedA 5) ready) = some .unusedEventCode ∧
    refusalOf (exec (.eventReservedB 5) ready) = some .unusedEventCode := by decide
/-- The operation that `withFetchWord` places is the next that runs. -/
theorem test_fetch : (nextOf (step (State.reset.withFetchWord 16 0x9000))).map (fun t => (t.cad.ramp, t.issued)) =
    some (1, []) := by decide +kernel
/-- An internal word is no external event (R102, R103). -/
theorem test_internalEvent :
    refusalOf (step { ready with trace := [{ code := codeOfBits 16 0x4800, inputs := Inputs.none }] }) =
      some .notAnExternalEvent := by decide +kernel
/-- SAT.STEP is an event only where the link is exercised alone, and CTRL.TICK is none there (R14, log entry 30). -/
theorem test_traceKind :
    let run := fun (k : TraceKind) (w : Nat) =>
      step { ready with traceKind := k, trace := [{ code := codeOfBits 16 w, inputs := Inputs.none }] }
    refusalOf (run .wholeBlock 0x0800) = some .notAnExternalEvent ∧
    (nextOf (run .linkAlone 0x0800)).map (·.link.sat.k) = some 1 ∧
    refusalOf (run .linkAlone 0x9800) = some .linkExercisedAlone := by decide +kernel

/-! ### Witnesses: states and operands that meet a statement's hypotheses, clause by clause -/

theorem meets_SatStepFollowsTheRun :
    instanceOk ready.par = true ∧
    ∀ s ∈ [atPos 0 0 false 0, atPos 0 2 true 0, atPos 1 0 true 1, atPos 10 0 true 0, atPos 10 1 true 1023],
      s.link.sat.r.toNat ≤ s.par.lit.payloadBits ∧ s.link.sat.k.toNat < runLen s.par.lit s.link.sat.r s.link.sat.sample := by
  decide

theorem meets_SatelliteEmitsTheMessage :
    ready.par.lit = Literals.given ∧ ready.link.sat.r = 0 ∧ ready.link.sat.k = 0 ∧ portSample ready.link.adc 0 = 0 := by
  decide

theorem meets_MsgEmitsOneMessage :
    ready.par.lit = Literals.given ∧ ready.link.dec.dphase = .idle ∧ ready.link.sat.r = 0 ∧ ready.link.sat.k = 0 := by
  decide

theorem meets_MsgShownToADecodeCall :
    (inCall .search 0 0 0).par.lit = Literals.given ∧ (inCall .search 0 0 0).link.dec.dphase = .search ∧
    (inCall .payload 0 0 0).par.lit = Literals.given ∧ (inCall .payload 0 0 0).link.dec.dphase = .payload := by decide

theorem meets_SymbolsWhileSearching :
    (inCall .search 19 0 0).par.lit = Literals.given ∧
    (inCall .search 19 0 0).link.dec.dphase = .search ∧ (inCall .search 19 0 0).link.dec.nonSync.toNat < 20 ∧
    (inCall .search 20 0 0).link.dec.dphase = .search ∧ (inCall .search 20 0 0).link.dec.nonSync.toNat = 20 := by decide

theorem meets_SymbolsInThePayload :
    (inCall .payload 0 8 0).par.lit = Literals.given ∧
    (inCall .payload 0 8 0).link.dec.dphase = .payload ∧ (inCall .payload 0 8 0).link.dec.bitIndex.toNat < 9 ∧
    (inCall .payload 0 9 0).link.dec.dphase = .payload ∧ (inCall .payload 0 9 0).link.dec.bitIndex.toNat = 9 := by decide

theorem meets_SymbolsBetweenCalls :
    (ready.par.lit = Literals.given ∧ ready.link.dec.dphase = .idle ∧ ready.link.sat.k = 0 ∧ ready.link.sat.r = 0) ∧
    ∀ s ∈ [atPos 1 0 true 1, atPos 10 0 true 0],
      s.link.dec.dphase = .idle ∧ s.link.sat.k = 0 ∧ 1 ≤ s.link.sat.r.toNat ∧ s.link.sat.r.toNat ≤ 10 := by decide

theorem meets_MisplacedSymbolsAreRefused :
    ready.par.lit = Literals.given ∧
    (inCall .settle 0 0 0).link.dec.dphase = .settle ∧
    (let s := atPos 0 1 true 0; s.link.dec.dphase = .idle ∧ ¬(s.link.sat.r = 0 ∧ s.link.sat.k = 0)) ∧
    (ready.link.dec.dphase = .idle ∧ (ready.link.sat.k ≠ 0 ∨ ready.link.sat.r = 0)) ∧
    (ready.link.dec.dphase ≠ .payload ∧ ready.link.dec.dphase ≠ .search) ∧
    (inCall .search 19 0 0).link.dec.nonSync.toNat ≠ 20 := by decide

/-- A missed clock event leaves the satellite and its level; an extra one moves it two half-cycles (R128). -/
theorem test_clock_faults :
    let hit := fun c : ClockFault =>
      linkHalfCycle Literals.given { ready.link with line := [{ fault := .clean, clock := c, resetSat := false }] }
    ((hit .missed).1.sat = ready.link.sat ∧ (hit .missed).2 = ready.link.sat.d) ∧
    ((hit .extra).1.sat.k = 2 ∧ (hit .extra).1.sat.r = 0 ∧ (hit .extra).2 = !ready.link.sat.d) := by decide

/-- Every kind of line input, and none. -/
theorem meets_CallStepsAreLinkSteps :
    (∀ f ∈ [LineFault.clean, .glitch, .forced true], ∀ c ∈ [ClockFault.clean, .missed, .extra], ∀ r : Bool,
      { ready.link with line := [{ fault := f, clock := c, resetSat := r }] }.line =
        { fault := f, clock := c, resetSat := r } :: []) ∧
    (∀ g : Bool,
      { ready.link with
        line := [{ fault := if g then .glitch else .clean, clock := .clean, resetSat := false }] }.line =
          { fault := if g then .glitch else .clean, clock := .clean, resetSat := false } :: []) ∧
    ready.link.line = [] := ⟨fun _ _ _ _ _ => rfl, fun _ => rfl, rfl⟩

theorem meets_LinkRunMeasuresOneRun :
    instanceOk ready.par = true ∧
    (shown (inCall .search 0 0 0) [false]).link.shows Literals.given (List.replicate 0 true ++ [false]) ∧
    (shown (inCall .search 0 0 0) [true, true, false]).link.shows Literals.given (List.replicate 2 true ++ [false]) ∧
    (shown (inCall .payload 0 0 0) [true, false]).link.shows Literals.given (List.replicate 1 true ++ [false]) ∧
    (shown (inCall .search 0 0 0) [true, true, true]).link.shows Literals.given (List.replicate 3 true) ∧
    (shown (inCall .payload 0 0 0) [true, true]).link.shows Literals.given (List.replicate 2 true) := by
  unfold Link.shows; decide +kernel

/-- No run, and twenty, before the marker or the long run; twenty-one runs. The level before the first run is L. -/
theorem meets_LinkSyncSearchesTheMarker :
    ready.par.lit = Literals.given ∧
    (∀ runs ∈ [[], List.replicate 20 2], (∀ n ∈ runs, n = 1 ∨ n = 2) ∧ runs.length ≤ 20 ∧
      (shown (inCall .search 0 0 0) (levelsOf false (runs ++ [3, 1])).tail).link.shows Literals.given
        (levelsOf false (runs ++ [3, 1])).tail ∧
      (shown (inCall .search 0 0 0) (levelsOf false (runs ++ [4])).tail).link.shows Literals.given
        (levelsOf false (runs ++ [4])).tail) ∧
    (∀ runs ∈ [List.replicate 21 1], (∀ n ∈ runs, n = 1 ∨ n = 2) ∧ runs.length = 21 ∧
      (shown (inCall .search 0 0 0) (levelsOf false (runs ++ [1])).tail).link.shows Literals.given
        (levelsOf false (runs ++ [1])).tail) := by
  unfold Link.shows; decide +kernel

theorem meets_LinkPayloadReadsTenRuns :
    ready.par.lit = Literals.given ∧
    (shown (inCall .payload 0 0 0) (levelsOf false ((runsOf Literals.given 0x155).tail ++ [1])).tail).link.shows Literals.given
      (levelsOf false ((runsOf Literals.given 0x155).tail ++ [1])).tail ∧
    ∀ j ∈ [0, 9], j < 10 ∧
      (shown (inCall .payload 0 0 0) (levelsOf false ((runsOf Literals.given 0x155).tail.take j ++ [3])).tail).link.shows Literals.given
        (levelsOf false ((runsOf Literals.given 0x155).tail.take j ++ [3])).tail := by
  unfold Link.shows; decide +kernel

theorem meets_DecodeCallJudgesTheShownRuns :
    ready.par.lit = Literals.given ∧
    (∀ runs ∈ [[], List.replicate 20 1], (∀ n ∈ runs, n = 1 ∨ n = 2) ∧ runs.length ≤ 20 ∧
      ∀ last ∈ [runsOf Literals.given 5 ++ [1], [4], (runsOf Literals.given 5).take 1 ++ [3],
          (runsOf Literals.given 5).take 10 ++ [3]],
        let ls := levelsOf true (runs ++ last)
        (shown ready ls).link.shows Literals.given ls ∧ (shown ready ls).link.clockSound ls.length) ∧
    ∀ runs ∈ [List.replicate 21 2], (∀ n ∈ runs, n = 1 ∨ n = 2) ∧ runs.length = 21 ∧
      let ls := levelsOf true (runs ++ [1])
      (shown ready ls).link.shows Literals.given ls ∧ (shown ready ls).link.clockSound ls.length := by
  unfold Link.shows Link.clockSound; decide +kernel

theorem meets_DeadAndAlternatingLines :
    ready.par.lit = Literals.given ∧
    ∀ ls ∈ [List.replicate 4 true, (List.range 22).map (fun i => true ^^ decide (i % 2 = 1))],
      (shown ready ls).link.shows Literals.given ls ∧ (shown ready ls).link.clockSound ls.length := by
  unfold Link.shows Link.clockSound; decide +kernel

/-- A link whose next clock event is missed (R128). -/
def missedClock : Link := { ready.link with line := [{ fault := .clean, clock := .missed, resetSat := false }] }

/-- A missed clock event during a call makes its outcome the free value (U34, log entry 20). -/
theorem test_linkDecode_clockFault : (decodeCall Literals.given missedClock).2 = Config.freeOutcome 0 := by
  have hit : clockDisturbed missedClock (judgedCall Literals.given missedClock).1 = true := by decide +kernel
  have number : (judgedCall Literals.given missedClock).1.free = 0 := by decide +kernel
  simp only [decodeCall, if_pos hit, endOpen, number]

/-- A fresh satellite, one half-cycle into a marker, about to start run 1, and inside the last run; also the positions of
StepsOfAFaultFreeCall. -/
theorem meets_RoundTripFromEveryPosition :
    ∀ s ∈ [atPos 0 0 false 0, atPos 0 1 true 5, atPos 1 0 true 5, atPos 10 1 true 1023],
      s.par.lit = Literals.given ∧ s.link.line = List.replicate 0 cleanStep ∧ s.link.sat.r.toNat ≤ 10 ∧
        s.link.sat.k.toNat < runLen s.par.lit s.link.sat.r s.link.sat.sample := by decide

theorem meets_StepsOfAFaultFreeCall :
    let s := { atPos 0 1 true 1023 with link := { (atPos 0 1 true 1023).link with line := List.replicate 50 cleanStep } }
    s.par.lit = Literals.given ∧ s.link.line = List.replicate 50 cleanStep ∧ s.link.sat.r.toNat ≤ 10 ∧
      s.link.sat.k.toNat < runLen s.par.lit s.link.sat.r s.link.sat.sample := by decide

theorem meets_NextCallRecoversFromAnyLineError :
    ∃ t, let s := shown ready [true, true, true, true]
      s.par.lit = Literals.given ∧ s.link.sat.r.toNat ≤ 10 ∧
      s.link.sat.k.toNat < runLen s.par.lit s.link.sat.r s.link.sat.sample ∧ exec .linkDecode s = .next t :=
  ⟨_, rfl, by decide, by decide, rfl⟩

theorem meets_ConvertRawToCelsius :
    instanceOk ready.par = true ∧ ready.par.convert = .affine ∧ ready.par.lit = Literals.given ∧
    (154 : Sample).toNat = ready.par.lit.rawRef ∧ (154 : Sample).toNat ≤ (155 : Sample).toNat ∧
    exec (.tfConvert 155) ready = .next { ready with ret := .temp 25 } :=
  ⟨by decide, rfl, rfl, rfl, by decide, rfl⟩

/-- T unknown; differences of +4, -4 and +3 (V-TF-4). -/
theorem meets_FilterStep :
    (ready.temp = 0 ∧ exec (.tfConvert 175) ready = .next { ready with ret := .temp 35 }) ∧
    (let s := { ready with temp := 30 }
     s.temp ≠ 0 ∧ exec (.tfConvert 173) s = .next { s with ret := .temp 34 } ∧ s.temp.toInt + s.par.lit.margin < (34 : Temp).toInt ∧
     exec (.tfConvert 157) s = .next { s with ret := .temp 26 } ∧ (26 : Temp).toInt < s.temp.toInt - s.par.lit.margin ∧
     exec (.tfConvert 171) s = .next { s with ret := .temp 33 } ∧ ((33 : Temp).toInt - s.temp.toInt).natAbs ≤ s.par.lit.margin) :=
  ⟨⟨rfl, rfl⟩, by decide, rfl, by decide, rfl, by decide, rfl, by decide⟩

/-- V-TF-13. -/
theorem meets_FilterSettlesThreeShort :
    let s := { ready with temp := 20 }
    let inst : Int := 35
    let stop := max (inst - s.par.lit.margin) (min s.temp.toInt (inst + s.par.lit.margin))
    (∀ v ∈ List.replicate 12 (175 : Sample), (convert s.par v).toInt = inst) ∧
    0 < s.temp.toInt * stop ∧ (inst - s.temp.toInt).natAbs - s.par.lit.margin ≤ (List.replicate 12 (175 : Sample)).length := by
  refine ⟨fun v h => ?_, by decide, by decide⟩
  rw [List.eq_of_mem_replicate h]
  decide

theorem meets_TemperatureStaysInRange :
    ∃ t, (let s := { ready with temp := 448 }
      s.par.lit = Literals.given ∧ s.par.convert = .affine ∧ -50 ≤ s.temp.toInt ∧ s.temp.toInt ≤ 448 ∧
      exec (.tfUpdate (some 0)) s = .next t) :=
  ⟨_, rfl, rfl, by decide, by decide, rfl⟩

/-- Not due; cooldown 1; sensor fault; a spike (V-SD-1); no comparison yet (V-SD-6); no spike (V-SD-2). -/
theorem meets_SpikeDetectorTick :
    let due := { ready with cad := { ready.cad with spike := 1200 } }
    ready.cfg.width.toNat ≤ ready.par.lit.spikeWidthMax ∧
    { ready.cad with spike := 1199 }.spike.toNat < ready.par.lit.spikePeriod ∧
    due.par.lit.spikePeriod ≤ due.cad.spike.toNat ∧
    0 < { due with cooldown := 1 }.cooldown.toNat ∧ due.cooldown.toNat = 0 ∧
    { due with sensorFault := true }.sensorFault = true ∧ due.sensorFault = false ∧
    (∃ ref, ([25, 20, 20, 20, 20, 20] : List Temp)[due.cfg.width.toNat]? = some ref ∧ ref.toInt < (25 : Temp).toInt ∧
      (due.cfg.height.toNat : Int) ≤ (25 : Temp).toInt - ref.toInt) ∧
    (∀ ref, ([20] : List Temp)[due.cfg.width.toNat]? = some ref → (20 : Temp).toInt ≤ ref.toInt) ∧
    (∀ ref, ([24, 20, 20, 20, 20, 20] : List Temp)[due.cfg.width.toNat]? = some ref →
      (24 : Temp).toInt - ref.toInt < (due.cfg.height.toNat : Int)) := by
  refine ⟨by decide, by decide, by decide, by decide, by decide, rfl, rfl, ⟨20, rfl, by decide, by decide⟩,
    fun ref h => ?_, fun ref h => ?_⟩
  · cases h
  · cases h; decide

theorem meets_CooldownFreezesTheHistory :
    ready.par.lit.spikePeriod ≤ 65535 ∧ 3 ≤ { ready with cooldown := 3 }.cooldown.toNat := by decide

theorem meets_RampMovesOneFan :
    instanceOk ready.par = true ∧ (19 : Counter).toNat < ready.par.rampPeriod ∧ ready.par.rampPeriod ≤ (20 : Counter).toNat ∧
    (∀ n ∈ [(0 : Byte), 1, 3, 4], n.toNat ≤ ready.par.fanAmount) ∧
    { ready with runState := .off, fanCount := 1 }.runState = .off ∧ 0 < (1 : Byte).toNat ∧ (0 : Byte).toNat = 0 ∧
    { ready with runState := .spike, fanCount := 3 }.runState ≠ .off ∧ (3 : Byte).toNat < ready.par.fanAmount ∧
    (4 : Byte).toNat = ready.par.fanAmount := by decide

theorem meets_OutputsFollowTheCount :
    instanceOk ready.par = true ∧ { ready with fanCount := 4 }.fanCount.toNat ≤ ready.par.fanAmount := by decide

theorem meets_InrushBound :
    ∃ t, instanceOk ready.par = true ∧ ready.fanCount.toNat ≤ ready.par.fanAmount ∧ exec .frOut ready = .next ready ∧
      (∀ l ∈ ready.async, Async.resetMain ∉ l) ∧ exec .ctrlTick ready = .next t :=
  ⟨_, by decide, by decide, rfl, by decide, rfl⟩

/-- Fan 0 toggles in V-TM-4, fan 1 does not: the window runs to its end; in V-TM-3 every fan has shown a transition after
two re-samples. Count eligible at 20, not at 19. -/
theorem meets_MeasurementCycle :
    instanceOk ready.par = true ∧
    (let p : Port TachVec := { level := 0, draws := [0b0101, 0b0100, 0b0101, 0b0100, 0b0101] }
     (portSample p 1).getLsbD 0 ≠ (portSample p 0).getLsbD 0 ∧
     ∀ i, i ≤ 4 → (portSample p i).getLsbD 1 = (portSample p 0).getLsbD 1) ∧
    (let p : Port TachVec := { level := 0, draws := [0b0101, 0b0110, 0b1010, 0b0000, 0b1111] }
     ∀ f, f < ready.par.fanAmount → ∃ i, i < 2 ∧ (portSample p (i + 1)).getLsbD f ≠ (portSample p 0).getLsbD f) ∧
    2 < ready.par.tachSamples ∧
    ready.par.lit.stuckPeriod ≤ (20 : Counter).toNat ∧ (19 : Counter).toNat < ready.par.lit.stuckPeriod := by decide +kernel

theorem meets_ReportTheLeastStuckFan :
    instanceOk ready.par = true ∧ (([0, 3, 1, 3] : List Byte).getD 1 0).toNat = ready.par.maxStuck := by decide

theorem meets_ConstantLineIsReportedStuck :
    instanceOk ready.par = true ∧ 3 < ready.par.fanAmount ∧ ready.stuck.getD 3 0 = 0 ∧ ready.par.maxStuck ≤ 3 ∧
    ready.par.lit.stuckPeriod ≤ 65535 ∧
    ∀ v ∈ ({ level := 0b1000, draws := [0b1001, 0b1100] } : Port TachVec).draws,
      v.getLsbD 3 = (0b1000 : TachVec).getLsbD 3 := by
  refine ⟨by decide, by decide, by decide, by decide, by decide, ?_⟩
  simp only [List.forall_mem_cons]
  exact ⟨by decide, by decide, fun _ h => nomatch h⟩

theorem meets_FaultIsReadByNoOperation :
    (∃ t, exec .faEval ready = .next t) ∧ exec .ctrlTick State.reset = .refused .configNotLoaded := ⟨⟨_, rfl⟩, rfl⟩

theorem meets_StuckFansNeverReachTheThermostat : ∃ t, exec .ctrlTick ready = .next t := ⟨_, rfl⟩

theorem meets_ControlTickRunsItsPhases : ready.phase = .idle ∧ ready.loaded = true ∧ ready.async = [] := ⟨rfl, rfl, rfl⟩

theorem meets_TimerTicksBetweenPhases :
    let s := { ready with async := [0, 1, 2, 0, 3].map (fun n => List.replicate n .timerTick) }
    s.phase = .idle ∧ s.loaded = true ∧ s.async = [0, 1, 2, 0, 3].map (fun n => List.replicate n .timerTick) :=
  ⟨rfl, rfl, rfl⟩

theorem meets_OnlyBetweenControlTicks :
    { ready with phase := .sense }.phase ≠ .idle ∧ State.reset.phase = .idle ∧ State.reset.loaded = false ∧
    (∃ t, exec (.reset .main) ready = .next t) ∧ ∃ t, exec .cfgLoad ready = .next t :=
  ⟨by decide, rfl, rfl, ⟨_, rfl⟩, _, rfl⟩

/-- At the first boundary, with something before and after the reset, and at the fifth. -/
theorem meets_ResetBetweenPhasesEndsTheTick :
    ready.phase = .idle ∧ ready.loaded = true ∧
    ([] : List (List Async)).length ≤ 4 ∧ (∀ l ∈ [[Async.timerTick]], Async.resetMain ∉ l) ∧
    [[Async.timerTick, .resetMain, .resetSat], [.timerTick]] =
      [] ++ ([.timerTick] ++ .resetMain :: [.resetSat]) :: [[.timerTick]] ∧
    [[Async.timerTick], [], [.resetSat], []].length ≤ 4 ∧
    (∀ l ∈ [[], [Async.timerTick], [], [.resetSat], []], Async.resetMain ∉ l) ∧
    [[Async.timerTick], [], [.resetSat], [], [.resetMain]] =
      [[Async.timerTick], [], [.resetSat], []] ++ ([] ++ .resetMain :: []) :: [] := by decide

theorem meets_EndOfEveryControlTick :
    ∃ t, instanceOk ready.par = true ∧ exec .ctrlTick ready = .next t := ⟨_, by decide, rfl⟩

theorem meets_SensorFaultTick :
    let s := shown ready (List.replicate 4 true)
    s.par.lit = Literals.given ∧ instanceOk s.par = true ∧ s.fanCount.toNat ≤ s.par.fanAmount ∧ s.phase = .idle ∧
    s.loaded = true ∧ s.async = [] ∧ s.link.shows s.par.lit (List.replicate 4 true) ∧ s.link.clockSound 4 := by
  unfold Link.shows Link.clockSound; decide +kernel

theorem meets_FirstControlTickAfterReset :
    ready.par.lit = Literals.given ∧ instanceOk ready.par = true ∧ (∀ j, cfgByteRead ready.stored ready.bytes j = 0xFF) ∧
    ready.link.line = [] ∧ ready.async = [] ∧ portSample ready.link.adc 0 = 0 := by decide

/-- Every field at both ends of its range; each clamp at its boundary, the neighbour's present value. -/
theorem meets_ConfigWriteClampsAndPersists :
    instanceOk ready.par = true ∧ ready.phase = .idle ∧
    (∀ i : Fin 5, (BitVec.ofNat 3 i.val).toNat = i.val ∧
      (getField ready.par.lo i).toNat ≤ (getField ready.par.hi i).toNat) ∧
    (ready.cfg.on.toNat ≤ (32 : Byte).toNat ∧ (32 : Byte).toNat ≤ ready.par.hi.off.toNat) ∧
    ((29 : Byte).toNat ≤ ready.cfg.off.toNat ∧ ready.par.lo.on.toNat ≤ (29 : Byte).toNat) := by decide

theorem meets_ConfigWriteRefusals :
    ready.phase = .idle ∧ 4 < (5 : BitVec 3).toNat ∧ (0 : Byte).toNat < (getField ready.par.lo 1).toNat ∧
    (getField ready.par.hi 0).toNat < (100 : Byte).toNat := by decide

/-- Every byte erased; stored thresholds that cross; a width above 10 (V-CFG-13). -/
theorem meets_ConfigLoadAppliesDefaults :
    (let c := Params.testSet.dflt
     ready.phase = .idle ∧
     (∀ j : Fin 5, getField c j =
       if cfgByteRead ready.stored ready.bytes j = 0xFF then getField ready.par.dflt j else cfgByteRead ready.stored ready.bytes j) ∧
     c.off.toNat < c.on.toNat ∧
     ∀ j, (getField ready.par.lo j).toNat ≤ (getField c j).toNat ∧
       (getField c j).toNat ≤ (getField ready.par.hi j).toNat) ∧
    (let c := loadedConfig ready.par ready.stored [(0, 32)]; c.on.toNat ≤ c.off.toNat) ∧
    (let c := loadedConfig ready.par ready.stored [(2, 11)]
     c.off.toNat < c.on.toNat ∧ (getField ready.par.hi 2).toNat < (getField c 2).toNat) := by decide

theorem meets_ReloadAfterWriteChangesNothing :
    ∃ t u, instanceOk State.reset.par = true ∧ exec .cfgLoad State.reset = .next t ∧ exec (.cfgWrite 0 32) t = .next u :=
  ⟨_, _, by decide, rfl, rfl⟩

/-- An external event, an internal word, words that decode to nothing, nothing to run, a bad instance, a placed word. -/
theorem meets_StepRunsTheDecodedInstruction :
    let ev := fun w : Nat => { ready with trace := [{ code := codeOfBits 16 w, inputs := Inputs.none }] }
    let is := fun w : Nat => ready.withFetchWord 16 w
    instanceOk ready.par = true ∧ ready.issued = [] ∧ ready.trace = [] ∧ ready.traceKind = .wholeBlock ∧
    (let s := { ev 0x0800 with traceKind := .linkAlone }
     s.traceKind = .linkAlone ∧ decode (lineCtx s) (codeOfBits 16 0x0800) = some .satStep) ∧
    (let s := { ev 0x9800 with traceKind := .linkAlone }
     s.traceKind = .linkAlone ∧ decode (lineCtx s) (codeOfBits 16 0x9800) = some .ctrlTick) ∧
    Instr.satStep.isLinkAlone = true ∧ Instr.ctrlTick.isLinkAlone = false ∧ Instr.ctrlTick.isExternal = true ∧
    decode (lineCtx (ev 0x9000)) (codeOfBits 16 0x9000) = some .timerTick ∧ Instr.timerTick.isExternal = true ∧
    decode (lineCtx (ev 0x4800)) (codeOfBits 16 0x4800) = some .sdClear ∧ Instr.sdClear.isExternal = false ∧
    decode (lineCtx (ev 0x9001)) (codeOfBits 16 0x9001) = none ∧
    (is 0x4800).issued = [codeOfBits 16 0x4800] ∧
    decode (lineCtx (is 0x4800)) (codeOfBits 16 0x4800) = some .sdClear ∧
    decode (lineCtx (is 0x9001)) (codeOfBits 16 0x9001) = none ∧
    instanceOk { Params.testSet with fanAmount := 0 } = false ∧ decodeTableWord 16 0x9000 = some .timerTick := by
  decide +kernel

theorem meets_DecodeInvertsEncode :
    idleCtx.lit = Literals.given ∧
    (∀ i ∈ [Instr.s3, .b1, .b0, .msg 1023, .cfgWrite 4 0xFE, .tfUpdate (some 1023), .linkRun .payload, .reset .sat],
      i.wellFormed = true ∧ i.standsIn idleCtx = true) ∧
    (Instr.runNonsync21 true).standsIn (searchCtx 20) = true ∧ Instr.runLong.standsIn (searchCtx 0) = true ∧
    Instr.runPayload3.standsIn payloadCtx = true := by decide

theorem meets_EventWordsAreTheTableRows : decodeWord 0xA121 0 = some (.cfgWrite 1 33) := by decide

theorem ready_inv : ready.Inv where
  params_ok := by decide
  fanCount_le := by decide
  fanEn_length := rfl
  stuck_length := rfl
  stuck_le := by decide
  stuckFan_lt := fun _ h => nomatch h
  fault_lt := fun _ h => nomatch h
  hist_le := by decide
  fault_unknown := fun h => nomatch h
  config_ok := fun _ => by decide
  bytes_wf := rfl
  phase_idle := rfl
  dphase_idle := rfl
  sat_position := by decide

theorem meets_StepKeepsTheInvariants : ∃ t, ready.Inv ∧ step ready = .next t := ⟨_, ready_inv, rfl⟩

theorem meets_EachRegisterHasItsWriter :
    ∃ t, exec (.tfUpdate (some 175)) ready = .next t ∧ t.temp ≠ ready.temp := ⟨_, rfl, by decide⟩

end Sys2Proof.Tests
end

section
/-! PROOFS. One step of the machine (spec/00_scope.md R14, R301, R312): what may start an operation, which codes the event
words of an operation carry (spec/30_encoding.md R102, R103), and what `step` then runs. -/

namespace Sys2Proof.Proofs

open Machine

/-! ### The codes of the event words -/

/-- `c` is the code of a word of the instruction, the `code` column of R102's table; a line symbol has no word. -/
def HasCode (c : Nat) : Instr → Prop
  | .s3 | .b1 | .b0 | .runPayload3 | .runLong | .runNonsync21 _ | .msg _ => False
  | .reset _ => c = 0x00
  | .satStep => c = 0x01
  | .linkStep _ => c = 0x02
  | .linkRun _ => c = 0x03
  | .linkSync => c = 0x04
  | .linkPayload => c = 0x05
  | .linkDecode => c = 0x06
  | .tfConvert _ => c = 0x07
  | .tfUpdate _ => c = 0x08
  | .sdClear => c = 0x09
  | .sdTick => c = 0x0A
  | .frState => c = 0x0B
  | .frRamp => c = 0x0C
  | .frOut => c = 0x0D
  | .tmGate => c = 0x0E
  | .tmMeasure => c = 0x0F
  | .tmReport => c = 0x10
  | .faEval => c = 0x11
  | .timerTick => c = 0x12
  | .ctrlTick => c = 0x13
  | .cfgWrite _ _ => c = 0x14
  | .cfgLoad => c = 0x15
  | .eventReservedA _ => c = 0x16 ∨ c = 0x17
  | .eventReservedB _ => 0x18 ≤ c ∧ c < 0x20

section Decoded

variable {w operand : EventWord} {i j : Instr}

theorem eq_of_decodePlain (h : decodePlain i w operand = some j) : j = i := by
  unfold decodePlain at h
  split at h
  · exact (Option.some.inj h).symm
  · cases h

theorem eq_of_decodeWide (h : decodeWide i operand = some j) : j = i := by
  unfold decodeWide at h
  split at h
  · exact (Option.some.inj h).symm
  · cases h

theorem eq_of_decodeBit {f : Bool → Instr} (h : decodeBit f w operand = some j) : ∃ b, j = f b := by
  unfold decodeBit at h
  split at h
  · exact ⟨_, (Option.some.inj h).symm⟩
  · cases h

theorem eq_of_decodeReset (h : decodeReset w operand = some j) : ∃ unit, j = .reset unit := by
  unfold decodeReset at h
  split_ifs at h
  · exact ⟨.main, (Option.some.inj h).symm⟩
  · exact ⟨.sat, (Option.some.inj h).symm⟩

theorem eq_of_decodeConvert (h : decodeConvert w operand = some j) : ∃ v, j = .tfConvert v := by
  unfold decodeConvert at h
  split at h
  · exact ⟨_, (Option.some.inj h).symm⟩
  · cases h

theorem eq_of_decodeUpdate (h : decodeUpdate w operand = some j) : ∃ raw, j = .tfUpdate raw := by
  unfold decodeUpdate at h
  split_ifs at h
  · exact ⟨none, (Option.some.inj h).symm⟩
  · exact ⟨some _, (Option.some.inj h).symm⟩

theorem codeField_lt (w : EventWord) : codeField w < 0x20 := (w.extractLsb' 11 5).isLt

/-- A word decodes to an operation of its own code (R102, R103). -/
theorem hasCode_of_decodeWord (h : decodeWord w operand = some i) : HasCode (codeField w) i := by
  have hlt := codeField_lt w
  unfold decodeWord at h
  split at h
  case h_1 hc => obtain ⟨unit, rfl⟩ := eq_of_decodeReset h; exact hc
  case h_3 hc => obtain ⟨g, rfl⟩ := eq_of_decodeBit h; exact hc
  case h_4 hc => obtain ⟨b, rfl⟩ := eq_of_decodeBit h; exact hc
  case h_8 hc => obtain ⟨v, rfl⟩ := eq_of_decodeConvert h; exact hc
  case h_9 hc => obtain ⟨raw, rfl⟩ := eq_of_decodeUpdate h; exact hc
  case h_21 hc => cases eq_of_decodeWide h; exact hc
  case h_23 hc => cases eq_of_decodeWide h; exact .inl hc
  case h_24 hc => cases eq_of_decodeWide h; exact .inr hc
  case h_25 =>
    cases eq_of_decodeWide h
    simp only [imp_false] at *
    exact ⟨by omega, hlt⟩
  all_goals cases eq_of_decodePlain h; assumption

/-- R14, R102: RESET and the codes from TIMER.TICK on are what the environment may start in the whole block. -/
theorem isExternal_iff_of_hasCode {c : Nat} (h : HasCode c i) : i.isExternal = true ↔ c = 0 ∨ 0x12 ≤ c := by
  cases i with
  | s3 | b1 | b0 | runPayload3 | runLong | runNonsync21 | msg => exact h.elim
  | _ =>
    simp only [HasCode] at h
    simp only [Instr.isExternal, Bool.false_eq_true, true_iff, false_iff]
    omega

/-- R14, log entry 30: RESET, SAT.STEP, LINK.DECODE and the unused codes are what it may start on the link alone. -/
theorem isLinkAlone_iff_of_hasCode {c : Nat} (h : HasCode c i) :
    i.isLinkAlone = true ↔ c = 0 ∨ c = 1 ∨ c = 6 ∨ 0x16 ≤ c := by
  cases i with
  | s3 | b1 | b0 | runPayload3 | runLong | runNonsync21 | msg => exact h.elim
  | _ =>
    simp only [HasCode] at h
    simp only [Instr.isLinkAlone, Bool.false_eq_true, true_iff, false_iff]
    omega

/-- A test that a decoded instruction passes exactly when its word's code passes `q`. -/
theorem decodeWord_map_eq_true_iff {p : Instr → Bool} {q : Nat → Prop}
    (hpq : ∀ {c : Nat} {i : Instr}, HasCode c i → (p i = true ↔ q c)) :
    (decodeWord w operand).map p = some true ↔ (decodeWord w operand).isSome = true ∧ q (codeField w) := by
  cases h : decodeWord w operand with
  | none => simp
  | some i => simpa using hpq (hasCode_of_decodeWord h)

/-! ### What the environment may start -/

theorem refusedInTrace_eq_none {k : TraceKind}
    (h : i.isExternal = true ∧ k = .wholeBlock ∨ i.isLinkAlone = true ∧ k = .linkAlone) :
    refusedInTrace k i = none := by
  rcases h with ⟨hi, rfl⟩ | ⟨hi, rfl⟩ <;> simp [refusedInTrace, hi]

theorem refusedInTrace_wholeBlock (h : i.isExternal = false) :
    refusedInTrace .wholeBlock i = some .notAnExternalEvent := by
  simp [refusedInTrace, h]

theorem refusedInTrace_linkAlone (h : i.isLinkAlone = false) :
    refusedInTrace .linkAlone i = some (if i.isExternal then .linkExercisedAlone else .notAnExternalEvent) := by
  cases hx : i.isExternal <;> simp [refusedInTrace, h, hx]

/-! ### The first event of the trace, and an operation issued on its own -/

section Run

variable {s : State} {e : Event} {rest : List Event} {c : Code} {codes : List Code}

theorem runEvent_eq_exec (hd : decode (lineCtx s) e.code = some i) (hr : refusedInTrace s.traceKind i = none) :
    runEvent s e rest = exec i (acceptEvent s e rest) := by
  simp only [runEvent, fetchInstr, hd, hr]

theorem runEvent_eq_refused {r : Refusal} (hd : decode (lineCtx s) e.code = some i)
    (hr : refusedInTrace s.traceKind i = some r) : runEvent s e rest = .refused r := by
  simp only [runEvent, fetchInstr, hd, hr]

theorem runEvent_of_decode_none (hd : decode (lineCtx s) e.code = none) :
    runEvent s e rest = .refused .noSuchEvent := by
  simp only [runEvent, fetchInstr, hd]

theorem runIssued_eq_exec (hd : decode (lineCtx s) c = some i) :
    runIssued s c codes = exec i { s with issued := codes } := by
  simp only [runIssued, fetchInstr, hd]

theorem runIssued_of_decode_none (hd : decode (lineCtx s) c = none) :
    runIssued s c codes = .refused .noSuchEvent := by
  simp only [runIssued, fetchInstr, hd]

/-! ### One step -/

/-- R301: parameters that break a constraint are refused whatever runs next. -/
theorem step_of_badInstance (h : instanceOk s.par = false) : step s = .refused .badInstance := by
  unfold step runNext runTrace
  split
  · simp [ofValidInstance, h]
  · split <;> simp [ofValidInstance, h]

theorem step_of_trace (hok : instanceOk s.par = true) (hi : s.issued = []) (ht : s.trace = e :: rest) :
    step s = runEvent s e rest := by
  simp only [step, runNext, hi, runTrace, ht, ofValidInstance, hok, if_true]

theorem step_of_issued (hok : instanceOk s.par = true) (hi : s.issued = c :: codes) :
    step s = runIssued s c codes := by
  simp only [step, runNext, hi, ofValidInstance, hok, if_true]

/-- R312: nothing issued and nothing in the trace leaves the state as it is. -/
theorem step_of_nothing (hok : instanceOk s.par = true) (hi : s.issued = []) (ht : s.trace = []) :
    step s = .next s := by
  simp only [step, runNext, hi, runTrace, ht, ofValidInstance, hok, if_true]

/-- A table word is read alike in every line context: only level strings are read against one (R91, R102). -/
theorem decode_codeOfBits (ctx : LineCtx) (nbits n : Nat) :
    decode ctx (codeOfBits nbits n) = decodeTableWord nbits n := rfl

/-- Log entry 19: a placed word's operation runs in the state it was placed in. -/
theorem step_withFetchWord {nbits n : Nat} (hok : instanceOk s.par = true) (hd : decodeTableWord nbits n = some i) :
    step (s.withFetchWord nbits n) = exec i s :=
  calc step (s.withFetchWord nbits n)
      = runIssued (s.withFetchWord nbits n) (codeOfBits nbits n) s.issued := step_of_issued hok rfl
    _ = exec i s := runIssued_eq_exec ((decode_codeOfBits _ nbits n).trans hd)

end Run

end Decoded

/-- Settles O54: the parameter check, then what is issued, then the trace's first event, each by the lemma about it; the two
statements about codes by the code that a decoded word carries. -/
theorem stepRunsTheDecodedInstruction : Obligations.StepRunsTheDecodedInstruction := by
  intro s
  refine ⟨fun e rest i hok hi ht hd => ?_, fun c rest i hok hi hd => ?_, fun e rest hok hi ht hd => ?_,
    fun c rest hok hi hd => ?_, step_of_nothing, step_of_badInstance,
    fun w operand => decodeWord_map_eq_true_iff isExternal_iff_of_hasCode,
    fun w operand => decodeWord_map_eq_true_iff isLinkAlone_iff_of_hasCode, fun nbits w i => step_withFetchWord⟩
  · rw [step_of_trace hok hi ht]
    refine ⟨fun hstart => runEvent_eq_exec hd (refusedInTrace_eq_none hstart), fun hx hk => ?_, fun hl hk => ?_⟩
    · exact runEvent_eq_refused hd (hk ▸ refusedInTrace_wholeBlock hx)
    · exact runEvent_eq_refused hd (hk ▸ refusedInTrace_linkAlone hl)
  · rw [step_of_issued hok hi, runIssued_eq_exec hd]
  · rw [step_of_trace hok hi ht, runEvent_of_decode_none hd]
  · rw [step_of_issued hok hi, runIssued_of_decode_none hd]

end Sys2Proof.Proofs
end

section
/-! PROOFS. What an operation that completes can do to the state (spec/10_state.md R20, R21): one inversion lemma of `exec`,
from which the statements about every operation follow. -/

namespace Sys2Proof.Proofs

open Machine

/-! ### Operations of the link -/

/-- No decode call is under way and the satellite is inside a run (R23, R24). -/
def BetweenCalls (c : Literals) (l : Link) : Prop := l.dec.dphase = .idle ∧ SatPosition c l

/-- Only the link and the returned value differ. -/
def LinkUpdate (s t : State) : Prop := ∃ l r, t = { s with link := l, ret := r }

/-- Only the link and the returned value differ, and a link between calls is between calls again. -/
def SafeLinkUpdate (s t : State) : Prop :=
  ∃ l r, t = { s with link := l, ret := r } ∧
    (literalsOk s.par.lit = true → BetweenCalls s.par.lit s.link → BetweenCalls s.par.lit l)

section Link

variable {s t u : State}

theorem LinkUpdate.refl (s : State) : LinkUpdate s s := ⟨s.link, s.ret, rfl⟩

theorem LinkUpdate.trans (h : LinkUpdate s t) (h' : LinkUpdate t u) : LinkUpdate s u := by
  obtain ⟨l, r, rfl⟩ := h
  obtain ⟨l', r', rfl⟩ := h'
  exact ⟨l', r', rfl⟩

/-- Inside a call nothing is claimed of the link. -/
theorem LinkUpdate.safe (h : LinkUpdate s t) (hd : s.link.dec.dphase ≠ .idle) : SafeLinkUpdate s t := by
  obtain ⟨l, r, ht⟩ := h
  exact ⟨l, r, ht, fun _ hb => absurd hb.1 hd⟩

/-- Link steps and changes of the decoder's registers other than `dphase`. -/
theorem betweenCalls_of_moved {c : Literals} {n : Nat} {l l' : Link} (h : Moved c n l l') (hc : literalsOk c = true)
    (hb : BetweenCalls c l) : BetweenCalls c l' :=
  ⟨h.dphase.trans hb.1, h.position hc hb.2⟩

theorem searchShown_linkUpdate (n : Nat) (s : State) : LinkUpdate s (searchShown n s) := by
  unfold searchShown
  dsimp only
  split
  · exact ⟨_, s.ret, rfl⟩
  · exact ⟨_, s.ret, rfl⟩
  · exact ⟨_, _, rfl⟩

theorem payloadShown_linkUpdate (n : Nat) (s : State) : LinkUpdate s (payloadShown n s) := by
  unfold payloadShown
  dsimp only
  split
  · exact ⟨_, _, rfl⟩
  · split
    · exact ⟨_, s.ret, rfl⟩
    · exact ⟨_, _, rfl⟩

theorem callRuns_linkUpdate (ns : List Nat) (s : State) : LinkUpdate s (callRuns ns s) := by
  induction ns generalizing s with
  | nil => exact LinkUpdate.refl s
  | cons n ns ih =>
    unfold callRuns
    split
    · exact (searchShown_linkUpdate n s).trans (ih _)
    · exact (payloadShown_linkUpdate n s).trans (ih _)
    · exact LinkUpdate.refl s
    · exact LinkUpdate.refl s

/-- Clock events between calls, whatever the ADC's draws (R121). -/
theorem satReacts_safeLinkUpdate (n : Nat) (adc : Port Sample) (s : State) :
    SafeLinkUpdate s { s with link := satReacts s.par.lit n { s.link with adc := adc } } := by
  obtain ⟨-, hdec, -, -, -, hpos⟩ := satReacts_frame (c := s.par.lit) n { s.link with adc := adc }
  exact ⟨_, s.ret, rfl, fun hc hb => ⟨(congrArg Decoder.dphase hdec).trans hb.1, hpos hc hb.2⟩⟩

theorem lineRun_safeLinkUpdate {n : Nat} (h : lineRun n s = .next t) : SafeLinkUpdate s t := by
  unfold lineRun at h
  split at h
  case h_1 =>
    unfold emitRun at h
    split at h
    · cases h
      exact satReacts_safeLinkUpdate n s.link.adc s
    · cases h
  case h_2 hd =>
    cases h
    exact (searchShown_linkUpdate n s).safe (by simp [hd])
  case h_3 => cases h
  case h_4 hd =>
    cases h
    exact (payloadShown_linkUpdate n s).safe (by simp [hd])

theorem execRunPayload3_safeLinkUpdate (h : execRunPayload3 s = .next t) : SafeLinkUpdate s t := by
  unfold execRunPayload3 at h
  split at h
  next hd =>
    cases h
    exact (payloadShown_linkUpdate _ s).safe (by simp [hd])
  next => cases h

theorem execRunLong_safeLinkUpdate (h : execRunLong s = .next t) : SafeLinkUpdate s t := by
  unfold execRunLong at h
  split at h
  case h_1 hd =>
    cases h
    exact (searchShown_linkUpdate _ s).safe (by simp [hd])
  case h_2 hd =>
    cases h
    exact (payloadShown_linkUpdate _ s).safe (by simp [hd])
  case h_3 => cases h
  case h_4 => cases h

theorem execRunNonsync21_safeLinkUpdate {two : Bool} (h : execRunNonsync21 two s = .next t) : SafeLinkUpdate s t := by
  unfold execRunNonsync21 at h
  split at h
  next hd =>
    cases h
    exact (searchShown_linkUpdate _ s).safe (by simp [hd.1])
  next => cases h

theorem execMsg_safeLinkUpdate {v : Sample} (h : execMsg v s = .next t) : SafeLinkUpdate s t := by
  unfold execMsg at h
  split at h
  case h_1 =>
    unfold emitMessage at h
    split at h
    · cases h
      exact satReacts_safeLinkUpdate _ _ s
    · cases h
  case h_2 => cases h
  case h_3 hd =>
    cases h
    exact (callRuns_linkUpdate _ s).safe (by simp [hd])
  case h_4 hd =>
    cases h
    exact (callRuns_linkUpdate _ s).safe (by simp [hd])

theorem execSatStep_safeLinkUpdate (h : execSatStep s = .next t) : SafeLinkUpdate s t := by
  cases h
  exact satReacts_safeLinkUpdate 1 s.link.adc s

theorem execResetSat_safeLinkUpdate (h : execReset .sat s = .next t) : SafeLinkUpdate s t := by
  cases h
  exact ⟨_, s.ret, rfl, fun hc hb => ⟨hb.1, resetSatellite_position hc s.link⟩⟩

theorem execLinkStep_safeLinkUpdate {g : Bool} (h : execLinkStep g s = .next t) : SafeLinkUpdate s t := by
  cases h
  obtain ⟨-, -, -, hdec, hpos⟩ := linkStepWith_moved (c := s.par.lit)
    { fault := if g then .glitch else .clean, clock := .clean, resetSat := false } s.link
  exact ⟨_, _, rfl, fun hc hb => ⟨(congrArg Decoder.dphase hdec).trans hb.1, hpos hc hb.2⟩⟩

theorem limitOf_bounds {c : Literals} (hc : literalsOk c = true) (limit : RunLimit) :
    1 ≤ limitOf c limit ∧ limitOf c limit ≤ 5 := by
  have hf := literalsOk_facts hc
  cases limit <;> simp only [limitOf] <;> omega

theorem execLinkRun_safeLinkUpdate {limit : RunLimit} (h : execLinkRun limit s = .next t) : SafeLinkUpdate s t := by
  cases h
  refine ⟨_, _, rfl, fun hc hb => ?_⟩
  obtain ⟨h1, h5⟩ := limitOf_bounds hc limit
  obtain ⟨k, -, hm⟩ := measureRun_moved (limitOf s.par.lit limit) s.link h1 h5
  exact betweenCalls_of_moved hm hc hb

theorem execLinkSync_safeLinkUpdate (h : execLinkSync s = .next t) : SafeLinkUpdate s t := by
  cases h
  refine ⟨_, _, rfl, fun hc hb => ?_⟩
  obtain ⟨k, -, hm⟩ := searchMarker_moved hc s.link
  exact betweenCalls_of_moved hm hc hb

theorem execLinkPayload_safeLinkUpdate (h : execLinkPayload s = .next t) : SafeLinkUpdate s t := by
  cases h
  refine ⟨_, _, rfl, fun hc hb => ?_⟩
  obtain ⟨k, -, hm⟩ := readPayload_moved hc s.link
  exact betweenCalls_of_moved hm hc hb

theorem execLinkDecode_safeLinkUpdate (h : execLinkDecode s = .next t) : SafeLinkUpdate s t := by
  cases h
  refine ⟨_, _, rfl, fun hc hb => ?_⟩
  obtain ⟨hd, ⟨k, -, -, -, hpos⟩, -⟩ := decodeCall_cases hc s.link
  exact ⟨hd, hpos hb.2⟩

/-- An operation that only returns a value (R170, R226). -/
theorem safeLinkUpdate_of_ret (r : Returned) : SafeLinkUpdate s { s with ret := r } := ⟨s.link, r, rfl, fun _ => id⟩

end Link

/-! ### Every operation -/

/-- What an operation that completes leaves, operation by operation. -/
inductive Effect (s : State) : Instr → State → Prop
  | link {i : Instr} {t : State} (h : SafeLinkUpdate s t) : Effect s i t
  | resetMain : Effect s (.reset .main) (resetMain s)
  | tfUpdate (raw : Option Sample) : Effect s (.tfUpdate raw) (updateTemperature raw s)
  | sdClear : Effect s .sdClear (clearHistory s)
  | sdTick : Effect s .sdTick (spikeTick s)
  | frState : Effect s .frState (updateRunState s)
  | frRamp : Effect s .frRamp (rampTick s)
  | frOut : Effect s .frOut (driveOutputs s)
  | tmMeasure : Effect s .tmMeasure (measureFans s)
  | tmReport : Effect s .tmReport (reportStuck s)
  | faEval : Effect s .faEval (evalFault s)
  | timerTick : Effect s .timerTick (timerWork s)
  | ctrlTick : Effect s .ctrlTick (controlTick s)
  | cfgWrite (index : BitVec 3) (value : Byte) (i : Fin 5) (hv : inEditRange s.par i value = true) :
      Effect s (.cfgWrite index value) (writeField i value s)
  | cfgLoad (hlt : (loadedConfig s.par s.stored s.bytes).off.toNat < (loadedConfig s.par s.stored s.bytes).on.toNat)
      (hr : inRanges s.par (loadedConfig s.par s.stored s.bytes) = true) :
      Effect s .cfgLoad { s with cfg := loadedConfig s.par s.stored s.bytes, loaded := true }

theorem execCfgWrite_effect {index : BitVec 3} {value : Byte} {s t : State} (h : execCfgWrite index value s = .next t) :
    Effect s (.cfgWrite index value) t := by
  unfold execCfgWrite at h
  split at h
  next => cases h
  next =>
    split at h
    next => cases h
    next i _ =>
      split at h
      next hv =>
        cases h
        exact .cfgWrite index value i hv
      next => cases h

theorem execCfgLoad_effect {s t : State} (h : execCfgLoad s = .next t) : Effect s .cfgLoad t := by
  unfold execCfgLoad at h
  dsimp only at h
  split at h
  next => cases h
  next =>
    split at h
    next => cases h
    next hlt =>
      split at h
      next hr =>
        cases h
        exact .cfgLoad (not_le.1 hlt) hr
      next => cases h

theorem execCtrlTick_cases {s t : State} (h : execCtrlTick s = .next t) :
    s.phase = .idle ∧ s.loaded = true ∧ t = controlTick s := by
  unfold execCtrlTick at h
  split at h
  next => cases h
  next hp =>
    split at h
    next hl => exact ⟨not_not.1 hp, hl, (Host.Outcome.next.inj h).symm⟩
    next => cases h

theorem Effect.of_next {i : Instr} {s t u : State} (e : Effect s i u)
    (h : (.next u : Host.Outcome State Fault Refusal) = .next t) : Effect s i t :=
  Host.Outcome.next.inj h ▸ e

/-- The inversion of `exec`. -/
theorem exec_effect {i : Instr} {s t : State} (h : exec i s = .next t) : Effect s i t := by
  cases i with
  | s3 | b1 | b0 => exact .link (lineRun_safeLinkUpdate h)
  | runPayload3 => exact .link (execRunPayload3_safeLinkUpdate h)
  | runLong => exact .link (execRunLong_safeLinkUpdate h)
  | runNonsync21 two => exact .link (execRunNonsync21_safeLinkUpdate h)
  | msg v => exact .link (execMsg_safeLinkUpdate h)
  | reset unit =>
    cases unit with
    | main => exact Effect.resetMain.of_next h
    | sat => exact .link (execResetSat_safeLinkUpdate h)
  | satStep => exact .link (execSatStep_safeLinkUpdate h)
  | linkStep g => exact .link (execLinkStep_safeLinkUpdate h)
  | linkRun limit => exact .link (execLinkRun_safeLinkUpdate h)
  | linkSync => exact .link (execLinkSync_safeLinkUpdate h)
  | linkPayload => exact .link (execLinkPayload_safeLinkUpdate h)
  | linkDecode => exact .link (execLinkDecode_safeLinkUpdate h)
  | tfConvert v => exact (Effect.link (safeLinkUpdate_of_ret _)).of_next h
  | tmGate => exact (Effect.link (safeLinkUpdate_of_ret _)).of_next h
  | tfUpdate raw => exact (Effect.tfUpdate raw).of_next h
  | sdClear => exact Effect.sdClear.of_next h
  | sdTick => exact Effect.sdTick.of_next h
  | frState => exact Effect.frState.of_next h
  | frRamp => exact Effect.frRamp.of_next h
  | frOut => exact Effect.frOut.of_next h
  | tmMeasure => exact Effect.tmMeasure.of_next h
  | tmReport => exact Effect.tmReport.of_next h
  | faEval => exact Effect.faEval.of_next h
  | timerTick => exact Effect.timerTick.of_next h
  | ctrlTick =>
    obtain ⟨-, -, ht⟩ := execCtrlTick_cases h
    exact ht ▸ .ctrlTick
  | cfgWrite index value => exact execCfgWrite_effect h
  | cfgLoad => exact execCfgLoad_effect h
  | eventReservedA x => cases h
  | eventReservedB x => cases h

/-! ### What the larger operations leave unchanged -/

theorem spikeTick_update (s : State) :
    ∃ cad cooldown hist, spikeTick s = { s with cad := cad, cooldown := cooldown, hist := hist } ∧
      (s.sensorFault = true → s.hist = [] → hist = []) := by
  rcases spikeTick_cases s with ⟨-, e⟩ | ⟨-, -, e⟩ | ⟨-, -, -, e⟩ | ⟨-, -, hf, e⟩
  · exact ⟨_, _, _, e, fun _ => id⟩
  · exact ⟨_, _, _, e, fun _ => id⟩
  · exact ⟨_, _, _, e, fun _ => id⟩
  · rw [e, sampleHistory]
    dsimp only
    split
    · exact ⟨_, _, _, rfl, fun h => by simp [hf] at h⟩
    · exact ⟨_, _, _, rfl, fun h => by simp [hf] at h⟩

theorem rampTick_update (s : State) :
    ∃ n cad, rampTick s = { s with fanCount := n, cad := cad } ∧ (n = s.fanCount ∨ n = nextFanCount s) := by
  unfold rampTick
  dsimp only
  split
  · exact ⟨_, _, rfl, .inr rfl⟩
  · exact ⟨_, _, rfl, .inl rfl⟩

theorem updateTemperature_none (s : State) :
    updateTemperature none s = { s with sensorFault := true, temp := 0, hist := [] } := rfl

theorem updateTemperature_some (v : Sample) (s : State) :
    updateTemperature (some v) s =
      { s with sensorFault := false, temp := filterStep s.par.lit.margin s.temp (convert s.par v) } := rfl

/-- What a write of a field does (R261, R262, R263): the other threshold moves with it, or only the field changes. -/
theorem writeField_cases (i : Fin 5) (value : Byte) (s : State) :
    (i = 0 ∧ s.cfg.on.toNat ≤ value.toNat ∧
      writeField i value s = { s with
        cfg := { s.cfg with off := value, on := value + 1 }
        bytes := cfgByteWrite (cfgByteWrite s.bytes 1 (value + 1)) 0 value }) ∨
    (i = 1 ∧ value.toNat ≤ s.cfg.off.toNat ∧
      writeField i value s = { s with
        cfg := { s.cfg with on := value, off := value - 1 }
        bytes := cfgByteWrite (cfgByteWrite s.bytes 0 (value - 1)) 1 value }) ∨
    ((i = 0 → value.toNat < s.cfg.on.toNat) ∧ (i = 1 → s.cfg.off.toNat < value.toNat) ∧
      writeField i value s = { s with cfg := setField s.cfg i value, bytes := cfgByteWrite s.bytes i value }) := by
  unfold writeField
  dsimp only
  split_ifs with h0 h1
  · obtain ⟨rfl, hle⟩ := h0
    exact .inl ⟨rfl, hle, rfl⟩
  · obtain ⟨rfl, hle⟩ := h1
    exact .inr (.inl ⟨rfl, hle, rfl⟩)
  · refine .inr (.inr ⟨?_, ?_, rfl⟩)
    · rintro rfl
      exact not_le.1 fun hle => h0 ⟨rfl, hle⟩
    · rintro rfl
      exact not_le.1 fun hle => h1 ⟨rfl, hle⟩

theorem writeField_update (i : Fin 5) (value : Byte) (s : State) :
    ∃ cfg bytes, writeField i value s = { s with cfg := cfg, bytes := bytes } := by
  rcases writeField_cases i value s with ⟨-, -, e⟩ | ⟨-, -, e⟩ | ⟨-, -, e⟩ <;> exact ⟨_, _, e⟩

end Sys2Proof.Proofs
end

section
/-! PROOFS. The control tick against its operations run alone (spec/47_sequencer_timer_config.md R250, R251): each phase does
what its operations do when they run on their own, and each boundary what the arriving operations do. The tick differs
in `phase`, in the boundaries still to come and in the value last returned, which no phase reads. -/

namespace Sys2Proof.Proofs

open Machine

/-- `s` with the fields that a control tick handles in another way than operations run alone. -/
def overlay (p : Phase) (as : List (List Async)) (r : Returned) (s : State) : State :=
  { s with phase := p, async := as, ret := r }

section Overlay

variable (p : Phase) (as : List (List Async)) (r : Returned) (u : State)

/-! ### One phase -/

/-- What a phase of the control tick runs (R250). -/
def phaseBody : Phase → State → State
  | .idle => id
  | .sense => phaseSense
  | .spike => spikeTick
  | .state => updateRunState
  | .ramp => phaseRamp
  | .tach => phaseTach
  | .fault => phaseFault

theorem updateTemperature_overlay (raw : Option Sample) :
    updateTemperature raw (overlay p as r u) = overlay p as r (updateTemperature raw u) := by
  cases raw <;> rfl

theorem spikeTick_overlay : spikeTick (overlay p as r u) = overlay p as r (spikeTick u) := by
  simp only [spikeTick, sampleHistory, apply_ite (overlay p as r)]
  rfl

theorem phaseRamp_overlay : phaseRamp (overlay p as r u) = overlay p as r (phaseRamp u) := by
  simp only [phaseRamp, rampTick, apply_ite driveOutputs, apply_ite (overlay p as r)]
  rfl

theorem phaseTach_overlay : phaseTach (overlay p as r u) = overlay p as r (phaseTach u) := by
  simp only [phaseTach, apply_ite reportStuck, apply_ite (overlay p as r)]
  rfl

theorem phaseFault_overlay :
    phaseFault (overlay p as r u) = overlay .idle as r { evalFault u with heartbeat := !u.heartbeat } := rfl

/-- What `LINK.DECODE` leaves (R140). -/
def afterCall (u : State) : State :=
  { u with link := (decodeCall u.par.lit u.link).1, ret := .decode (decodeCall u.par.lit u.link).2 }

theorem phaseAlone_sense : phaseAlone .sense u = .next (updateTemperature (afterCall u).link.raw (afterCall u)) := rfl

theorem phaseAlone_spike : phaseAlone .spike u = .next (spikeTick u) := rfl

theorem phaseAlone_state : phaseAlone .state u = .next (updateRunState u) := rfl

theorem phaseAlone_ramp : phaseAlone .ramp u = .next (phaseRamp u) := rfl

theorem phaseAlone_tach : phaseAlone .tach u = .next (phaseTach u) := by
  cases h : u.measurementEligible <;> simp only [phaseAlone, phaseTach, h] <;> rfl

/-- The operations of a phase with a boundary after it complete, and the phase of the tick does the same (R250). -/
theorem phaseAlone_next (hp : p ∈ boundaryPhases) :
    ∃ w, phaseAlone p u = .next w ∧ ∀ q as r, phaseBody p (overlay q as r u) = overlay q as r w := by
  simp only [boundaryPhases, List.mem_cons, List.not_mem_nil, or_false] at hp
  rcases hp with rfl | rfl | rfl | rfl | rfl
  · exact ⟨_, phaseAlone_sense u, fun q as r => updateTemperature_overlay q as r (afterCall u) _⟩
  · exact ⟨_, phaseAlone_spike u, fun q as r => spikeTick_overlay q as r u⟩
  · exact ⟨_, phaseAlone_state u, fun q as r => rfl⟩
  · exact ⟨_, phaseAlone_ramp u, fun q as r => phaseRamp_overlay q as r u⟩
  · exact ⟨_, phaseAlone_tach u, fun q as r => phaseTach_overlay q as r u⟩

/-! ### One boundary -/

/-- What arrives is the operation it stands for (R251, R313). -/
theorem exec_asyncInstr (a : Async) : exec a.instr u = .next (arrive u a) := by
  cases a <;> rfl

theorem execList_arrivals (l : List Async) : execList (l.map Async.instr) u = .next (l.foldl arrive u) := by
  induction l generalizing u with
  | nil => rfl
  | cons a l ih => simp only [List.map_cons, execList, exec_asyncInstr, ih, List.foldl_cons]

theorem arrive_overlay (a : Async) :
    arrive (overlay p as r u) a = overlay (if a = .resetMain then .idle else p) as r (arrive u a) := by
  cases a <;> rfl

theorem foldl_arrive_overlay (l : List Async) :
    l.foldl arrive (overlay p as r u) =
      overlay (if .resetMain ∈ l then .idle else p) as r (l.foldl arrive u) := by
  induction l generalizing p u with
  | nil => rfl
  | cons a l ih =>
    rw [List.foldl_cons, arrive_overlay, ih, List.foldl_cons]
    congr 1
    by_cases ha : a = .resetMain
    · simp [ha]
    · simp [ha, Ne.symm ha]

theorem arrivals_overlay_cons (l : List Async) :
    arrivals (overlay p (l :: as) r u) =
      overlay (if .resetMain ∈ l then .idle else p) as r (l.foldl arrive u) :=
  foldl_arrive_overlay p as r u l

theorem nextPhase_overlay_nil (q : Phase) (body : State → State) :
    nextPhase p q body (overlay p [] r u) = body (overlay q [] r u) := by
  rcases nextPhase_cases p q body (overlay p [] r u) with ⟨h, -⟩ | ⟨-, h, -⟩ | ⟨-, -, e⟩
  · exact absurd rfl h
  · exact absurd rfl h
  · exact e

/-- A boundary without a `RESET(main)`: the next phase runs after what has arrived (R251). -/
theorem nextPhase_overlay_quiet (q : Phase) (body : State → State) {l : List Async} (hl : .resetMain ∉ l) :
    nextPhase p q body (overlay p (l :: as) r u) = body (overlay q as r (l.foldl arrive u)) := by
  have ha : arrivals (overlay p (l :: as) r u) = overlay p as r (l.foldl arrive u) := by
    rw [arrivals_overlay_cons, if_neg hl]
  rcases nextPhase_cases p q body (overlay p (l :: as) r u) with ⟨h, -⟩ | ⟨-, h, -⟩ | ⟨-, -, e⟩
  · exact absurd rfl h
  · exact absurd (by rw [ha]; rfl) h
  · rw [e, ha]
    rfl

/-- A boundary with a `RESET(main)` ends the tick (R318). -/
theorem nextPhase_overlay_reset (q : Phase) (body : State → State) {l : List Async} (hp : p ≠ .idle)
    (hl : .resetMain ∈ l) :
    nextPhase p q body (overlay p (l :: as) r u) = overlay .idle as r (l.foldl arrive u) := by
  have ha : arrivals (overlay p (l :: as) r u) = overlay .idle as r (l.foldl arrive u) := by
    rw [arrivals_overlay_cons, if_pos hl]
  rcases nextPhase_cases p q body (overlay p (l :: as) r u) with ⟨h, -⟩ | ⟨-, -, e⟩ | ⟨-, h, -⟩
  · exact absurd rfl h
  · rw [e, ha]
  · rw [ha] at h
    exact absurd h.symm hp

/-! ### The phases in order -/

/-- The phases `ps` of a tick, from the end of phase `done` on. -/
def phasesFrom : Phase → List Phase → State → State
  | _, [], s => s
  | done, p :: ps, s => phasesFrom p ps (nextPhase done p (phaseBody p) s)

theorem controlTick_eq (s : State) :
    controlTick s = phasesFrom .sense [.spike, .state, .ramp, .tach, .fault]
      (phaseBody .sense (overlay .sense s.async s.ret s)) := rfl

/-- Once the tick has ended nothing more of it runs. -/
theorem phasesFrom_overlay_idle (ps : List Phase) (hp : p ≠ .idle) (hps : .idle ∉ ps) :
    phasesFrom p ps (overlay .idle as r u) = overlay .idle as r u := by
  induction ps generalizing p with
  | nil => rfl
  | cons q ps ih =>
    have hn : nextPhase p q (phaseBody q) (overlay .idle as r u) = overlay .idle as r u := by
      rcases nextPhase_cases p q (phaseBody q) (overlay .idle as r u) with ⟨-, e⟩ | ⟨h, -⟩ | ⟨h, -⟩
      · exact e
      · exact absurd h.symm hp
      · exact absurd h.symm hp
    rw [List.mem_cons, not_or] at hps
    rw [phasesFrom, hn, ih q (Ne.symm hps.1) hps.2]

theorem ne_idle_of_mem_boundaryPhases {p : Phase} (h : p ∈ boundaryPhases) : p ≠ .idle := by
  rintro rfl
  exact absurd h (by decide)

end Overlay

/-! ### A rule for the whole tick -/

section Rule

variable {K : Phase → State → Prop}

/-- `K p u` is kept by what arrives while `p` is the phase last run; `K .idle` says the tick has ended. -/
def KeptByArrivals (K : Phase → State → Prop) : Prop :=
  ∀ p a u, K p u → K (if a = .resetMain then .idle else p) (arrive u a)

/-- The operations of `p`, run after phase `done`, lead from `K done` to `K p`. -/
def LeadsTo (K : Phase → State → Prop) (done p : Phase) : Prop :=
  ∀ u w, K done u → phaseAlone p u = .next w → K p w

theorem leadsTo_of_next {done p : Phase} {f : State → State} (hf : ∀ u, phaseAlone p u = .next (f u))
    (hK : ∀ u, K done u → K p (f u)) : LeadsTo K done p :=
  fun u _ hu he => Host.Outcome.next.inj ((hf u).symm.trans he) ▸ hK u hu

theorem KeptByArrivals.foldl (harr : KeptByArrivals K) (p : Phase) (l : List Async) (u : State) (h : K p u) :
    K (if .resetMain ∈ l then .idle else p) (l.foldl arrive u) := by
  induction l generalizing p u with
  | nil => exact h
  | cons a l ih =>
    have := ih _ _ (harr p a u h)
    by_cases ha : a = .resetMain
    · simpa [ha] using this
    · simpa [ha, Ne.symm ha] using this

/-- A boundary leads to the next phase, or to the end of the tick. -/
theorem nextPhase_overlay_cases (harr : KeptByArrivals K) {p : Phase} (hp : p ≠ .idle) (q : Phase) (body : State → State)
    (as : List (List Async)) (r : Returned) {u : State} (h : K p u) :
    ∃ as' v, (K p v ∧ nextPhase p q body (overlay p as r u) = body (overlay q as' r v)) ∨
      (K .idle v ∧ nextPhase p q body (overlay p as r u) = overlay .idle as' r v) := by
  cases as with
  | nil => exact ⟨[], u, .inl ⟨h, nextPhase_overlay_nil p r u q body⟩⟩
  | cons l as =>
    have hk := harr.foldl p l u h
    by_cases hl : .resetMain ∈ l
    · rw [if_pos hl] at hk
      exact ⟨as, _, .inr ⟨hk, nextPhase_overlay_reset p as r u q body hp hl⟩⟩
    · rw [if_neg hl] at hk
      exact ⟨as, _, .inl ⟨hk, nextPhase_overlay_quiet p as r u q body hl⟩⟩

/-- The phases from the end of `done` on, one after the other. -/
theorem phasesFrom_rule (harr : KeptByArrivals K)
    (hfault : ∀ u, K .tach u → K .idle { evalFault u with heartbeat := !u.heartbeat }) (r : Returned) (ps : List Phase)
    (done : Phase) (hmem : ∀ p ∈ done :: ps, p ∈ boundaryPhases) (hlast : (done :: ps).getLast? = some .tach)
    (hchain : (done :: ps).IsChain (LeadsTo K)) (as : List (List Async)) (u : State) (h : K done u) :
    ∃ as' v, K .idle v ∧ phasesFrom done (ps ++ [.fault]) (overlay done as r u) = overlay .idle as' r v := by
  have hd : done ≠ .idle := ne_idle_of_mem_boundaryPhases (hmem done List.mem_cons_self)
  induction ps generalizing done as u with
  | nil =>
    obtain rfl : done = .tach := by simpa using hlast
    obtain ⟨as', v, ⟨hv, e⟩ | ⟨hv, e⟩⟩ := nextPhase_overlay_cases harr hd .fault phaseFault as r h
    · exact ⟨as', _, hfault v hv, e.trans (phaseFault_overlay .fault as' r v)⟩
    · exact ⟨as', v, hv, e⟩
  | cons q ps ih =>
    have hq : ∀ p ∈ q :: ps, p ∈ boundaryPhases := fun p hp => hmem p (List.mem_cons_of_mem _ hp)
    have hq0 := hq q List.mem_cons_self
    obtain ⟨hstep, hchain⟩ := List.isChain_cons_cons.1 hchain
    rw [List.cons_append, phasesFrom]
    obtain ⟨as', v, ⟨hv, e⟩ | ⟨hv, e⟩⟩ := nextPhase_overlay_cases harr hd q (phaseBody q) as r h
    · obtain ⟨w, hw, hbody⟩ := phaseAlone_next q v hq0
      rw [e, hbody]
      exact ih q hq (by simpa using hlast) hchain as' w (hstep v w hv hw) (ne_idle_of_mem_boundaryPhases hq0)
    · refine ⟨as', v, hv, ?_⟩
      rw [e, phasesFrom_overlay_idle q as' r v _ (ne_idle_of_mem_boundaryPhases hq0)]
      simp only [List.mem_append, List.mem_singleton, reduceCtorEq, or_false]
      exact fun hi => ne_idle_of_mem_boundaryPhases (hq _ (List.mem_cons_of_mem _ hi)) rfl

/-- The whole tick (R250, R251): what `p`'s operations establish, what arrivals keep, and what the last phase makes of it
hold at the end. -/
theorem controlTick_rule (harr : KeptByArrivals K) (hchain : boundaryPhases.IsChain (LeadsTo K))
    (hfault : ∀ u, K .tach u → K .idle { evalFault u with heartbeat := !u.heartbeat }) (s : State)
    (hsense : ∀ w, phaseAlone .sense s = .next w → K .sense w) :
    ∃ as v, K .idle v ∧ controlTick s = overlay .idle as s.ret v := by
  obtain ⟨w, hw, hbody⟩ := phaseAlone_next .sense s (by decide)
  rw [controlTick_eq, hbody]
  exact phasesFrom_rule harr hfault s.ret [.spike, .state, .ramp, .tach] .sense (fun p hp => hp) rfl hchain s.async w
    (hsense w hw)

end Rule

/-! ### What its operations keep, the tick keeps -/

/-- The operations that a control tick runs, and those that may arrive within it (R250, R251). -/
def inTick : Instr → Bool
  | .linkDecode | .tfUpdate _ | .sdTick | .frState | .frRamp | .frOut | .tmMeasure | .tmReport | .faEval => true
  | .timerTick | .reset _ => true
  | _ => false

/-- Every operation of a control tick keeps `K`. -/
def KeptInTick (K : State → Prop) : Prop := ∀ i u w, inTick i = true → K u → exec i u = .next w → K w

section Kept

variable {K : State → Prop}

theorem KeptInTick.execList (hK : KeptInTick K) {is : List Instr} (his : is.all inTick = true) {u w : State}
    (h : K u) (he : execList is u = .next w) : K w := by
  induction is generalizing u with
  | nil => exact Host.Outcome.next.inj he ▸ h
  | cons i is ih =>
    rw [List.all_cons, Bool.and_eq_true] at his
    rw [Machine.execList] at he
    split at he
    next t ht => exact ih his.2 (hK i u t his.1 h ht) he
    next => cases he
    next => cases he

theorem KeptInTick.phaseAlone (hK : KeptInTick K) {p : Phase} {u w : State} (h : K u)
    (he : phaseAlone p u = .next w) : K w := by
  cases p with
  | idle => exact Host.Outcome.next.inj he ▸ h
  | sense => exact hK (.tfUpdate _) (afterCall u) w rfl (hK .linkDecode u _ rfl h rfl) he
  | spike => exact hK .sdTick u w rfl h he
  | state => exact hK .frState u w rfl h he
  | ramp => exact hK.execList rfl h he
  | tach => exact hK.execList (by split <;> rfl) h he
  | fault => exact hK .faEval u w rfl h he

theorem controlTick_keeps (hK : KeptInTick K) (hbeat : ∀ u b, K u → K { u with heartbeat := b }) {s : State}
    (h : K s) : ∃ as v, K v ∧ controlTick s = overlay .idle as s.ret v := by
  have hlead : ∀ done p, LeadsTo (fun _ => K) done p := fun _ _ _ _ hu he => hK.phaseAlone hu he
  refine controlTick_rule (K := fun _ => K) (fun p a u hu => ?_) ?_ (fun u hu => ?_) s (fun w hw => hK.phaseAlone h hw)
  · exact hK a.instr u _ (by cases a <;> rfl) hu (exec_asyncInstr u a)
  · simp [boundaryPhases, hlead]
  · exact hbeat _ _ (hK .faEval u _ rfl hu rfl)

end Kept

end Sys2Proof.Proofs
end

section
/-! PROOFS. The invariants of spec/10_state.md R50 and the ranges of R21: each operation keeps them, so each step does. -/

namespace Sys2Proof.Proofs

open Machine

/-! ### The parameters and the configuration -/

theorem instanceOk_fans {p : Params} (h : instanceOk p = true) :
    1 ≤ p.fanAmount ∧ p.fanAmount ≤ 255 ∧ 1 ≤ p.maxStuck ∧ p.maxStuck ≤ 255 := by
  simp only [instanceOk, Bool.and_eq_true, decide_eq_true_eq] at h
  tauto

/-- The edit ranges of the two thresholds overlap as R263 needs: a clamped neighbour stays in its own range. -/
theorem instanceOk_thresholds {p : Params} (h : instanceOk p = true) :
    p.lo.off.toNat + 1 ≤ p.lo.on.toNat ∧ p.hi.off.toNat + 1 ≤ p.hi.on.toNat := by
  simp only [instanceOk, Bool.and_eq_true, decide_eq_true_eq] at h
  tauto

theorem inRanges_iff (p : Params) (t : Thresholds) :
    inRanges p t = true ↔ ∀ i, (getField p.lo i).toNat ≤ (getField t i).toNat ∧
      (getField t i).toNat ≤ (getField p.hi i).toNat := by
  simp [inRanges, List.all_eq_true]

/-- A legal configuration (R39, R40). -/
def Legal (p : Params) (t : Thresholds) : Prop := t.off.toNat < t.on.toNat ∧ inRanges p t = true

theorem inEditRange_bounds {p : Params} {i : Fin 5} {value : Byte} (h : inEditRange p i value = true) :
    (getField p.lo i).toNat ≤ value.toNat ∧ value.toNat ≤ (getField p.hi i).toNat := by
  simp only [inEditRange, Bool.and_eq_true, decide_eq_true_eq] at h
  exact h.1

theorem inRanges_setField {p : Params} {t : Thresholds} {i : Fin 5} {value : Byte} (ht : inRanges p t = true)
    (hv : (getField p.lo i).toNat ≤ value.toNat ∧ value.toNat ≤ (getField p.hi i).toNat) :
    inRanges p (setField t i value) = true := by
  rw [inRanges_iff] at ht ⊢
  intro j
  rw [getField_setField]
  split
  next h => exact h ▸ hv
  next => exact ht j

/-- A write in the edit range keeps a legal configuration legal (R261, R262, R263). -/
theorem writeField_legal {i : Fin 5} {value : Byte} {s : State} (hp : instanceOk s.par = true)
    (hv : inEditRange s.par i value = true) (h : Legal s.par s.cfg) : Legal s.par (writeField i value s).cfg := by
  obtain ⟨hlt, hr⟩ := h
  have hb := inEditRange_bounds hv
  have ht := instanceOk_thresholds hp
  have hoff := (inRanges_iff _ _).1 hr 0
  have hon := (inRanges_iff _ _).1 hr 1
  simp only [getField] at hoff hon
  have hmax := s.par.hi.on.isLt
  rcases writeField_cases i value s with ⟨rfl, hle, e⟩ | ⟨rfl, hle, e⟩ | ⟨h0, h1, e⟩ <;> rw [e]
  · simp only [getField] at hb
    have hn : (value + 1).toNat = value.toNat + 1 := by rw [BitVec.toNat_add]; simp; omega
    refine ⟨by simp only [hn]; omega, ?_⟩
    exact inRanges_setField (i := 1) (inRanges_setField (i := 0) hr hb) (by simp only [getField, hn]; omega)
  · simp only [getField] at hb
    have hn : (value - 1).toNat = value.toNat - 1 := by rw [BitVec.toNat_sub]; simp; omega
    refine ⟨by simp only [hn]; omega, ?_⟩
    exact inRanges_setField (i := 0) (inRanges_setField (i := 1) hr hb) (by simp only [getField, hn]; omega)
  · refine ⟨?_, inRanges_setField hr hb⟩
    fin_cases i
    · exact h0 rfl
    · exact h1 rfl
    · exact hlt
    · exact hlt
    · exact hlt

theorem writeField_bytes_wf (i : Fin 5) (value : Byte) {s : State} (h : Memory.wf s.bytes = true) :
    Memory.wf (writeField i value s).bytes = true := by
  rcases writeField_cases i value s with ⟨-, -, e⟩ | ⟨-, -, e⟩ | ⟨-, -, e⟩ <;> rw [e]
  · exact cfgByteWrite_wf _ _ _ (cfgByteWrite_wf _ _ _ h)
  · exact cfgByteWrite_wf _ _ _ (cfgByteWrite_wf _ _ _ h)
  · exact cfgByteWrite_wf _ _ _ h

/-! ### The fans -/

theorem nextStuck_le {maxStuck : Nat} (hm : maxStuck ≤ 255) (changed eligible : Bool) {c : Byte}
    (h : c.toNat ≤ maxStuck) : (nextStuck maxStuck changed eligible c).toNat ≤ maxStuck := by
  unfold nextStuck
  split_ifs
  · simp
  · rw [BitVec.toNat_ofNat]; omega
  · exact h

theorem firstStuck_lt {s : State} {f : Byte} (hf : firstStuck s = some f) : f.toNat < s.par.fanAmount := by
  obtain ⟨k, hk, rfl⟩ := Option.map_eq_some_iff.1 hf
  have := List.mem_range.1 (List.mem_of_find?_eq_some hk)
  rw [BitVec.toNat_ofNat]
  omega

theorem faultOf_eq_fan {sensorFault : Bool} {stuckFan : Option Byte} {f : Byte}
    (h : faultOf sensorFault stuckFan = .fan f) : stuckFan = some f := by
  unfold faultOf at h
  split at h
  · cases h
  · split at h
    · exact congrArg some (FaultCode.fan.inj h)
    · cases h

/-! ### Each operation -/

section Operations

variable {s t : State}

theorem inv_of_safeLinkUpdate (h : s.Inv) (hs : SafeLinkUpdate s t) : t.Inv := by
  obtain ⟨l, r, rfl, hl⟩ := hs
  obtain ⟨hd, hp⟩ := hl (instanceOk_literals h.params_ok) ⟨h.dphase_idle, h.sat_position⟩
  exact { h with dphase_idle := hd, sat_position := hp }

/-- `RESET(main)` needs no more of the old state than what it leaves alone. -/
theorem resetMain_inv (h : s.Inv) : (resetMain s).Inv where
  params_ok := h.params_ok
  fanCount_le := by simp
  fanEn_length := by simp
  stuck_length := by simp
  stuck_le := fun c hc => by simp [List.eq_of_mem_replicate hc]
  stuckFan_lt := nofun
  fault_lt := nofun
  hist_le := by simp
  fault_unknown := nofun
  config_ok := nofun
  bytes_wf := h.bytes_wf
  phase_idle := rfl
  dphase_idle := rfl
  sat_position := h.sat_position

theorem updateTemperature_inv (h : s.Inv) (raw : Option Sample) : (updateTemperature raw s).Inv := by
  cases raw with
  | none => exact { h with hist_le := Nat.zero_le _, fault_unknown := fun _ => ⟨rfl, rfl⟩ }
  | some v => exact { h with fault_unknown := nofun }

theorem clearHistory_inv (h : s.Inv) : (clearHistory s).Inv :=
  { h with hist_le := Nat.zero_le _, fault_unknown := fun hf => ⟨(h.fault_unknown hf).1, rfl⟩ }

/-- The history is touched only without a sensor fault, and never outgrows its cells. -/
theorem sampleHistory_inv (h : s.Inv) (hf : s.sensorFault = false) : (sampleHistory s).Inv := by
  unfold sampleHistory
  dsimp only
  split
  · exact { h with hist_le := Nat.zero_le _, fault_unknown := fun ht => absurd (hf.symm.trans ht) nofun }
  · exact { h with
      hist_le := pushHistory_length_le _ _ _ _
      fault_unknown := fun ht => absurd (hf.symm.trans ht) nofun }

theorem spikeTick_inv (h : s.Inv) : (spikeTick s).Inv := by
  rcases spikeTick_cases s with ⟨-, e⟩ | ⟨-, -, e⟩ | ⟨-, -, -, e⟩ | ⟨-, -, hf, e⟩ <;> rw [e]
  · exact h
  · exact { h with }
  · exact { h with }
  · exact sampleHistory_inv { h with } hf

theorem updateRunState_inv (h : s.Inv) : (updateRunState s).Inv := { h with }

theorem rampTick_inv (h : s.Inv) : (rampTick s).Inv := by
  obtain ⟨n, cad, e, hn⟩ := rampTick_update s
  obtain ⟨-, h255, -⟩ := instanceOk_fans h.params_ok
  have hle : n.toNat ≤ s.par.fanAmount := by
    rcases hn with rfl | rfl
    · exact h.fanCount_le
    · exact (nextFanCount_near s h255 h.fanCount_le).2.2
  rw [e]
  exact { h with fanCount_le := hle }

theorem driveOutputs_inv (h : s.Inv) : (driveOutputs s).Inv := { h with fanEn_length := driveFans_length _ _ }

theorem stuck_getD_le (h : s.Inv) (f : Nat) : (s.stuck.getD f 0).toNat ≤ s.par.maxStuck := by
  rw [List.getD_eq_getElem?_getD]
  cases hf : s.stuck[f]? with
  | none => exact Nat.zero_le _
  | some c => exact h.stuck_le c (List.mem_of_getElem? hf)

theorem measureFans_inv (h : s.Inv) : (measureFans s).Inv := by
  obtain ⟨-, -, -, h255⟩ := instanceOk_fans h.params_ok
  refine { h with stuck_length := by simp [measureFans], stuck_le := fun c hc => ?_ }
  obtain ⟨f, -, rfl⟩ := List.mem_map.1 hc
  exact nextStuck_le h255 _ _ (stuck_getD_le h f)

theorem reportStuck_inv (h : s.Inv) : (reportStuck s).Inv := { h with stuckFan_lt := fun _ hf => firstStuck_lt hf }

theorem evalFault_inv (h : s.Inv) : (evalFault s).Inv :=
  { h with fault_lt := fun f hf => h.stuckFan_lt f (faultOf_eq_fan hf) }

theorem timerWork_inv (h : s.Inv) : (timerWork s).Inv := { h with }

theorem writeField_inv (h : s.Inv) {i : Fin 5} {value : Byte} (hv : inEditRange s.par i value = true) :
    (writeField i value s).Inv := by
  have hcfg := writeField_legal h.params_ok hv
  have hbytes := writeField_bytes_wf i value h.bytes_wf
  obtain ⟨cfg, bytes, e⟩ := writeField_update i value s
  rw [e] at hcfg hbytes ⊢
  exact { h with config_ok := fun hl => hcfg (h.config_ok hl), bytes_wf := hbytes }

end Operations

/-! ### Every operation, every step -/

/-- Every operation but the control tick keeps the invariants. -/
theorem exec_inv_of_ne_ctrlTick {i : Instr} {s t : State} (hi : i ≠ .ctrlTick) (h : s.Inv) (he : exec i s = .next t) :
    t.Inv := by
  cases exec_effect he with
  | link hl => exact inv_of_safeLinkUpdate h hl
  | resetMain => exact resetMain_inv h
  | tfUpdate raw => exact updateTemperature_inv h raw
  | sdClear => exact clearHistory_inv h
  | sdTick => exact spikeTick_inv h
  | frState => exact updateRunState_inv h
  | frRamp => exact rampTick_inv h
  | frOut => exact driveOutputs_inv h
  | tmMeasure => exact measureFans_inv h
  | tmReport => exact reportStuck_inv h
  | faEval => exact evalFault_inv h
  | timerTick => exact timerWork_inv h
  | ctrlTick => exact absurd rfl hi
  | cfgWrite index value i hv => exact writeField_inv h hv
  | cfgLoad hlt hr => exact { h with config_ok := fun _ => ⟨hlt, hr⟩ }

theorem inv_keptInTick : KeptInTick State.Inv := fun _ _ _ hi h he =>
  exec_inv_of_ne_ctrlTick (by rintro rfl; cases hi) h he

theorem controlTick_inv {s : State} (h : s.Inv) : (controlTick s).Inv := by
  obtain ⟨as, v, hv, e⟩ := controlTick_keeps inv_keptInTick (fun u b hu => { hu with }) h
  rw [e]
  exact { hv with phase_idle := rfl }

theorem exec_inv {i : Instr} {s t : State} (h : s.Inv) (he : exec i s = .next t) : t.Inv := by
  by_cases hi : i = .ctrlTick
  · subst hi
    obtain ⟨-, -, ht⟩ := execCtrlTick_cases he
    exact ht ▸ controlTick_inv h
  · exact exec_inv_of_ne_ctrlTick hi h he

/-- What a step is: nothing, or one operation on the state with its own entry taken from the trace or from what has been
issued (R14, R312). -/
theorem step_cases {s t : State} (h : step s = .next t) :
    t = s ∨ (∃ i e rest, exec i (acceptEvent s e rest) = .next t) ∨
      ∃ i rest, exec i { s with issued := rest } = .next t := by
  have hok : instanceOk s.par = true := by
    by_contra hn
    rw [step_of_badInstance (by simpa using hn)] at h
    cases h
  cases hi : s.issued with
  | cons c codes =>
    rw [step_of_issued hok hi, runIssued] at h
    split at h
    next i _ => exact .inr (.inr ⟨i, codes, h⟩)
    next => cases h
  | nil =>
    cases ht : s.trace with
    | nil =>
      rw [step_of_nothing hok hi ht] at h
      exact .inl (Host.Outcome.next.inj h).symm
    | cons e rest =>
      rw [step_of_trace hok hi ht, runEvent] at h
      split at h
      next => cases h
      next i _ =>
        split at h
        next => exact .inr (.inl ⟨i, e, rest, h⟩)
        next => cases h

/-- Settles O58: a step is one operation (`step_cases`), and every operation keeps the invariants, the control tick
because its phases do what operations run alone do. -/
theorem stepKeepsTheInvariants : Obligations.StepKeepsTheInvariants := by
  intro s t h hs
  rcases step_cases hs with rfl | ⟨i, e, rest, he⟩ | ⟨i, rest, he⟩
  · exact h
  · exact exec_inv (s := acceptEvent s e rest) { h with } he
  · exact exec_inv (s := { s with issued := rest }) { h with } he

/-- Settles O59: `State.reset` field by field. -/
theorem resetHasTheInvariants : Obligations.ResetHasTheInvariants where
  params_ok := by decide
  fanCount_le := by decide
  fanEn_length := rfl
  stuck_length := rfl
  stuck_le := by decide
  stuckFan_lt := nofun
  fault_lt := nofun
  hist_le := by decide
  fault_unknown := nofun
  config_ok := nofun
  bytes_wf := rfl
  phase_idle := rfl
  dphase_idle := rfl
  sat_position := by decide

end Sys2Proof.Proofs
end

section
/-! PROOFS. What a control tick leaves: at its end (spec/10_state.md R50, R37), and when a RESET(main) arrives between two
of its phases (spec/70_reset_and_hazards.md R318). -/

namespace Sys2Proof.Proofs

open Machine

/-! ### The end of every control tick -/

/-- How many phases have run when `p` is the last of them; a tick that has ended counts as complete. -/
def phasesRun : Phase → Nat
  | .sense => 1 | .spike => 2 | .state => 3 | .ramp => 4 | .tach => 5 | .fault => 6 | .idle => 6

/-- What the phases up to `p` have established, each for the rest of the tick. -/
structure Established (p : Phase) (s : State) : Prop where
  params_ok : instanceOk s.par = true
  call_over : s.link.dec.dphase = .idle
  unknown : s.sensorFault = true → s.temp = 0 ∧ s.hist = []
  off : 3 ≤ phasesRun p → s.sensorFault = true → s.runState = .off
  outputs : 4 ≤ phasesRun p → s.fanEn = driveFans s.par s.fanCount.toNat
  report : 5 ≤ phasesRun p → s.stuckFan = firstStuck s
  fault : 6 ≤ phasesRun p → s.fault = faultOf s.sensorFault s.stuckFan

section Tick

variable {p : Phase} {s : State}

/-- Nothing is claimed yet of a phase that has not run. -/
theorem notYet {n : Nat} {p : Phase} {Q : Prop} (h : phasesRun p < n := by decide) : n ≤ phasesRun p → Q :=
  fun hn => absurd hn (not_le.2 h)

theorem driveFans_zero (q : Params) : driveFans q 0 = List.replicate q.fanAmount false := by
  simp [driveFans, List.map_const']

/-- After a `RESET(main)` no fan is at its ceiling, which is at least 1. -/
theorem firstStuck_resetMain (h : instanceOk s.par = true) : firstStuck (resetMain s) = none := by
  obtain ⟨-, -, h1, -⟩ := instanceOk_fans h
  have hf : ∀ f ∈ List.range s.par.fanAmount, ¬ (resetMain s).fanStuck f = true := by
    intro f hf
    have := List.mem_range.1 hf
    simp [State.fanStuck, List.getD_eq_getElem?_getD, this]
    omega
  simp only [firstStuck, resetMain_par, List.find?_eq_none.2 hf, Option.map_none]

/-- A `RESET(main)` leaves what a complete tick establishes, and nothing else that arrives disturbs it. -/
theorem established_keptByArrivals : KeptByArrivals Established := by
  intro p a s h
  cases a with
  | timerTick => exact { h with }
  | resetSat => exact { h with }
  | resetMain =>
    exact {
      params_ok := h.params_ok
      call_over := rfl
      unknown := nofun
      off := fun _ => nofun
      outputs := fun _ => (driveFans_zero s.par).symm
      report := fun _ => (firstStuck_resetMain h.params_ok).symm
      fault := fun _ => rfl }

theorem established_sense (h : instanceOk s.par = true) :
    Established .sense (updateTemperature (afterCall s).link.raw (afterCall s)) := by
  have hd : (afterCall s).link.dec.dphase = .idle := (decodeCall_cases (instanceOk_literals h) s.link).1
  cases (afterCall s).link.raw with
  | none => exact ⟨h, hd, fun _ => ⟨rfl, rfl⟩, notYet, notYet, notYet, notYet⟩
  | some v => exact ⟨h, hd, nofun, notYet, notYet, notYet, notYet⟩

/-- The history stays empty under a sensor fault (R191). -/
theorem established_spike (h : Established .sense s) : Established .spike (spikeTick s) := by
  obtain ⟨cad, cooldown, hist, e, hh⟩ := spikeTick_update s
  rw [e]
  exact ⟨h.params_ok, h.call_over, fun hf => ⟨(h.unknown hf).1, hh hf (h.unknown hf).2⟩,
    notYet, notYet, notYet, notYet⟩

theorem established_state (h : Established .spike s) : Established .state (updateRunState s) :=
  ⟨h.params_ok, h.call_over, h.unknown, fun _ hf => if_pos hf, notYet, notYet, notYet⟩

theorem established_ramp (h : Established .state s) : Established .ramp (phaseRamp s) := by
  obtain ⟨n, cad, e, -⟩ := rampTick_update s
  rw [phaseRamp, e]
  exact ⟨h.params_ok, h.call_over, h.unknown, fun _ => h.off (by decide), fun _ => rfl, notYet, notYet⟩

theorem established_tach (h : Established .ramp s) : Established .tach (phaseTach s) := by
  unfold phaseTach
  split <;>
    exact ⟨h.params_ok, h.call_over, h.unknown, fun _ => h.off (by decide), fun _ => h.outputs (by decide), fun _ => rfl,
      notYet⟩

theorem established_fault (h : Established .tach s) :
    Established .idle { evalFault s with heartbeat := !s.heartbeat } :=
  ⟨h.params_ok, h.call_over, h.unknown, fun _ => h.off (by decide), fun _ => h.outputs (by decide),
    fun _ => h.report (by decide), fun _ => rfl⟩

theorem established_chain : boundaryPhases.IsChain (LeadsTo Established) := by
  have hspike := leadsTo_of_next (done := .sense) phaseAlone_spike fun _ => established_spike
  have hstate := leadsTo_of_next (done := .spike) phaseAlone_state fun _ => established_state
  have hramp := leadsTo_of_next (done := .state) phaseAlone_ramp fun _ => established_ramp
  have htach := leadsTo_of_next (done := .ramp) phaseAlone_tach fun _ => established_tach
  simp [boundaryPhases, hspike, hstate, hramp, htach]

theorem controlTick_established (h : instanceOk s.par = true) :
    (controlTick s).phase = .idle ∧ Established .idle (controlTick s) := by
  obtain ⟨as, v, hv, e⟩ := controlTick_rule established_keptByArrivals established_chain
    (fun _ => established_fault) s
    (fun w he => Host.Outcome.next.inj ((phaseAlone_sense s).symm.trans he) ▸ established_sense h)
  rw [e]
  exact ⟨rfl, { hv with }⟩

theorem faultOf_eq_sensor_iff (sensorFault : Bool) (stuckFan : Option Byte) :
    faultOf sensorFault stuckFan = .sensor ↔ sensorFault = true := by
  cases sensorFault <;> cases stuckFan <;> simp [faultOf]

theorem driveOutputs_eq_self (h : s.fanEn = driveFans s.par s.fanCount.toNat) : driveOutputs s = s := by
  rw [driveOutputs, ← h]

theorem reportStuck_eq_self (h : s.stuckFan = firstStuck s) : reportStuck s = s := by
  rw [reportStuck, ← h]

theorem evalFault_eq_self (h : s.fault = faultOf s.sensorFault s.stuckFan) : evalFault s = s := by
  rw [evalFault, ← h]

end Tick

/-- Settles O46: each phase establishes its part, arrivals keep it, and a `RESET(main)` establishes all of it. -/
theorem endOfEveryControlTick : Obligations.EndOfEveryControlTick := by
  intro s t hok he
  obtain ⟨-, -, ht⟩ := execCtrlTick_cases he
  obtain ⟨hp, h⟩ := controlTick_established hok
  rw [← ht] at hp h
  have hfault := h.fault (by decide)
  refine ⟨hp, h.call_over, hfault ▸ faultOf_eq_sensor_iff _ _,
    fun hf => ⟨(h.unknown hf).1, (h.unknown hf).2, h.off (by decide) hf⟩, ?_, ?_, ?_⟩
  · exact congrArg Host.Outcome.next (driveOutputs_eq_self (h.outputs (by decide)))
  · exact congrArg Host.Outcome.next (reportStuck_eq_self (h.report (by decide)))
  · exact congrArg Host.Outcome.next (evalFault_eq_self hfault)

/-! ### A reset between two phases -/

section ResetBetween

theorem foldl_arrive_phase_idle (l : List Async) {u : State} (h : u.phase = .idle) :
    (l.foldl arrive u).phase = .idle := by
  induction l generalizing u with
  | nil => exact h
  | cons a l ih => exact ih (by cases a <;> simp [arrive, h])

/-- A boundary with a `RESET(main)`, then nothing more of the tick. -/
theorem phasesFrom_overlay_reset {p : Phase} {l : List Async} (hp : p ≠ .idle) (hl : .resetMain ∈ l)
    (as : List (List Async)) (r : Returned) (u : State) {q : Phase} {ps : List Phase} (hps : .idle ∉ q :: ps) :
    phasesFrom p (q :: ps) (overlay p (l :: as) r u) = overlay .idle as r (l.foldl arrive u) := by
  rw [List.mem_cons, not_or] at hps
  rw [phasesFrom, nextPhase_overlay_reset p as r u q _ hp hl, phasesFrom_overlay_idle q as r _ ps (Ne.symm hps.1) hps.2]

theorem idle_notMem_phases {ps : List Phase} (h : ∀ q ∈ ps, q ∈ boundaryPhases) : .idle ∉ ps ++ [.fault] := by
  simp only [List.mem_append, List.mem_singleton, reduceCtorEq, or_false]
  exact fun hi => ne_idle_of_mem_boundaryPhases (h _ hi) rfl

/-- A control tick under way, seen from the start of phase `p`, and its phases run alone: they agree up to the boundary
where the `RESET(main)` arrives, and there the tick ends. -/
theorem phasesFrom_reset (pre post : List Async) (rest : List (List Async)) (r : Returned) (before : List (List Async))
    (hquiet : ∀ l ∈ pre :: before, .resetMain ∉ l) (p : Phase) (ps : List Phase)
    (hmem : ∀ q ∈ p :: ps, q ∈ boundaryPhases) (hlen : before.length ≤ ps.length) (u : State) :
    ∃ w, phasesAlone ((p :: ps).zip (before ++ [pre])) u = .next w ∧
      phasesFrom p (ps ++ [.fault]) (phaseBody p (overlay p (before ++ (pre ++ .resetMain :: post) :: rest) r u)) =
        overlay .idle rest r (post.foldl arrive (resetMain w)) := by
  induction before generalizing p ps u with
  | nil =>
    have hp := hmem p List.mem_cons_self
    obtain ⟨w, hw, hbody⟩ := phaseAlone_next p u hp
    refine ⟨pre.foldl arrive w, ?_, ?_⟩
    · simp only [List.nil_append, List.zip_cons_cons, List.zip_nil_right, phasesAlone, hw, andThen, execList_arrivals]
    · have hidle := idle_notMem_phases fun q hq => hmem q (List.mem_cons_of_mem _ hq)
      have hl : Async.resetMain ∈ pre ++ .resetMain :: post := by simp
      rw [hbody, List.nil_append]
      obtain ⟨q, qs, hqs⟩ := List.exists_cons_of_ne_nil (List.concat_ne_nil .fault ps)
      rw [hqs] at hidle ⊢
      rw [phasesFrom_overlay_reset (ne_idle_of_mem_boundaryPhases hp) hl rest r w hidle, List.foldl_append,
        List.foldl_cons]
      rfl
  | cons l before ih =>
    obtain ⟨w, hw, hbody⟩ := phaseAlone_next p u (hmem p List.mem_cons_self)
    obtain ⟨q, ps, rfl⟩ : ∃ q qs, ps = q :: qs := List.exists_cons_of_length_pos (by simp at hlen; omega)
    have hl : Async.resetMain ∉ l := hquiet l (by simp)
    obtain ⟨v, hv, hreal⟩ := ih (fun l' h' => hquiet l' (by simp at h' ⊢; tauto)) q ps
      (fun q' h' => hmem q' (List.mem_cons_of_mem _ h')) (by simpa using hlen) (l.foldl arrive w)
    refine ⟨v, ?_, ?_⟩
    · simp only [List.cons_append, List.zip_cons_cons, phasesAlone, hw, andThen, execList_arrivals]
      exact hv
    · rw [hbody, List.cons_append, List.cons_append, phasesFrom, nextPhase_overlay_quiet p _ r w q _ hl]
      exact hreal

end ResetBetween

/-- Settles O45: up to the reset the tick does what its phases do when run alone (`phasesFrom_reset`), and after it only what
arrives. -/
theorem resetBetweenPhasesEndsTheTick : Obligations.ResetBetweenPhasesEndsTheTick := by
  intro s before pre post rest hidle hloaded hlen hquiet hasync
  obtain ⟨u, hu, htick⟩ := phasesFrom_reset pre post rest s.ret before hquiet .sense [.spike, .state, .ramp, .tach]
    (fun p hp => hp) hlen s
  refine ⟨u, resetMain u, post.foldl arrive (resetMain u), hu, rfl, execList_arrivals _ _, ?_⟩
  have hexec : exec .ctrlTick s = .next (controlTick s) := by
    simp only [exec, execCtrlTick, hidle, hloaded, ne_eq, not_true, if_false, if_true]
  have hphase := foldl_arrive_phase_idle post (u := resetMain u) rfl
  rw [hexec, controlTick_eq, hasync]
  refine congrArg Host.Outcome.next (htick.trans ?_)
  rw [overlay, ← hphase]

end Sys2Proof.Proofs
end

section
/-! PROOFS. One writer for each register (spec/10_state.md R20, R21), and what the two resets write (R51, R52). -/

namespace Sys2Proof.Proofs

open Machine

/-! ### One writer for each register -/

/-- What no operation touches (R20, R21). -/
structure SameSurroundings (s t : State) : Prop where
  par : t.par = s.par
  trace : t.trace = s.trace
  traceKind : t.traceKind = s.traceKind
  issued : t.issued = s.issued
  stored : t.stored = s.stored

theorem SameSurroundings.refl (s : State) : SameSurroundings s s := ⟨rfl, rfl, rfl, rfl, rfl⟩

theorem SameSurroundings.trans {s t u : State} (h : SameSurroundings s t) (h' : SameSurroundings t u) :
    SameSurroundings s u :=
  ⟨h'.par.trans h.par, h'.trace.trans h.trace, h'.traceKind.trans h.traceKind, h'.issued.trans h.issued,
    h'.stored.trans h.stored⟩

/-- The surroundings stay, and the persisted bytes too unless the operation is `CFG.WRITE` (R72). -/
theorem exec_surroundings_of_ne_ctrlTick {i : Instr} {s t : State} (hi : i ≠ .ctrlTick) (he : exec i s = .next t) :
    SameSurroundings s t ∧ ((∀ index value, i ≠ .cfgWrite index value) → t.bytes = s.bytes) := by
  cases exec_effect he with
  | link h =>
    obtain ⟨l, r, rfl, -⟩ := h
    exact ⟨⟨rfl, rfl, rfl, rfl, rfl⟩, fun _ => rfl⟩
  | resetMain | sdClear | frState | frOut | tmMeasure | tmReport | faEval | timerTick | cfgLoad =>
    exact ⟨⟨rfl, rfl, rfl, rfl, rfl⟩, fun _ => rfl⟩
  | tfUpdate raw => cases raw <;> exact ⟨⟨rfl, rfl, rfl, rfl, rfl⟩, fun _ => rfl⟩
  | sdTick =>
    obtain ⟨cad, cooldown, hist, e, -⟩ := spikeTick_update s
    exact e ▸ ⟨⟨rfl, rfl, rfl, rfl, rfl⟩, fun _ => rfl⟩
  | frRamp =>
    obtain ⟨n, cad, e, -⟩ := rampTick_update s
    exact e ▸ ⟨⟨rfl, rfl, rfl, rfl, rfl⟩, fun _ => rfl⟩
  | ctrlTick => exact absurd rfl hi
  | cfgWrite index value i =>
    obtain ⟨cfg, bytes, e⟩ := writeField_update i value s
    exact e ▸ ⟨⟨rfl, rfl, rfl, rfl, rfl⟩, fun h => absurd rfl (h _ _)⟩

theorem controlTick_surroundings (s : State) :
    SameSurroundings s (controlTick s) ∧ (controlTick s).bytes = s.bytes := by
  have hkept : KeptInTick fun u => SameSurroundings s u ∧ u.bytes = s.bytes := by
    intro i u w hi ⟨hu, hb⟩ he
    obtain ⟨hw, hwb⟩ := exec_surroundings_of_ne_ctrlTick (by rintro rfl; cases hi) he
    exact ⟨hu.trans hw, (hwb (by rintro index value rfl; cases hi)).trans hb⟩
  obtain ⟨as, v, ⟨hv, hb⟩, e⟩ :=
    controlTick_keeps hkept (fun u b hu => ⟨{ hu.1 with }, hu.2⟩) ⟨SameSurroundings.refl s, rfl⟩
  rw [e]
  exact ⟨{ hv with }, hb⟩

theorem exec_surroundings {i : Instr} {s t : State} (he : exec i s = .next t) :
    SameSurroundings s t ∧ ((∀ index value, i ≠ .cfgWrite index value) → t.bytes = s.bytes) := by
  by_cases hi : i = .ctrlTick
  · subst hi
    obtain ⟨-, -, ht⟩ := execCtrlTick_cases he
    obtain ⟨hs, hb⟩ := controlTick_surroundings s
    exact ht ▸ ⟨hs, fun _ => hb⟩
  · exact exec_surroundings_of_ne_ctrlTick hi he

/-- Settles O60: the surroundings by `exec_surroundings`; of the registers of the control loop each operation writes those
that its record update names. -/
theorem eachRegisterHasItsWriter : Obligations.EachRegisterHasItsWriter := by
  intro i s t he
  obtain ⟨⟨hpar, htrace, hkind, hissued, hstored⟩, hbytes⟩ := exec_surroundings he
  refine ⟨hpar, htrace, hkind, hissued, hstored, fun hne => ?_, fun htick hreset => ?_⟩
  · by_contra hno
    exact hne (hbytes fun index value hi => hno ⟨index, value, hi⟩)
  cases exec_effect he with
  | link h =>
    obtain ⟨l, r, rfl, -⟩ := h
    simp
  | resetMain => exact absurd rfl hreset
  | ctrlTick => exact absurd rfl htick
  | tfUpdate raw => cases raw <;> simp [updateTemperature_none, updateTemperature_some]
  | sdTick =>
    obtain ⟨cad, cooldown, hist, e, -⟩ := spikeTick_update s
    simp [e]
  | frRamp =>
    obtain ⟨n, cad, e, -⟩ := rampTick_update s
    simp [e]
  | cfgWrite index value i =>
    obtain ⟨cfg, bytes, e⟩ := writeField_update i value s
    simp [e]
  | sdClear | frState | frOut | tmMeasure | tmReport | faEval | timerTick | cfgLoad => simp

/-! ### Both resets -/

/-- Settles O9, by the definition of `resetMain`. -/
theorem resetMainValues : Obligations.ResetMainValues := fun s => ⟨resetMain s, rfl, rfl⟩

/-- Settles O10, by the definition of `resetSatellite`. -/
theorem resetSatelliteValues : Obligations.ResetSatelliteValues := fun s =>
  ⟨{ s with link := resetSatellite s.link }, rfl, rfl⟩

/-- Settles O11: `State.reset` and the literals, value by value. -/
theorem resetStateHoldsTheSpecValues : Obligations.ResetStateHoldsTheSpecValues := by
  unfold Obligations.ResetStateHoldsTheSpecValues
  decide

end Sys2Proof.Proofs
end

section
/-! PROOFS. The shared operations of spec/20_memory.md: `LinkStep` (R66), alone and as the half-cycle of a call, and
`DriveFans` (R70). -/

namespace Sys2Proof.Proofs

open Machine

/-! ### The fan order -/

section FanOrder

variable {p : Params}

/-- A list of FAN_AMOUNT channels that holds every channel is a permutation of them (R7). -/
theorem instanceOk_fanOrder_perm (h : instanceOk p = true) : (List.range p.fanAmount).Perm p.fanOrder := by
  have horder : orderOk p = true := by
    simp only [instanceOk, Bool.and_eq_true] at h
    tauto
  simp only [orderOk, Bool.and_eq_true, decide_eq_true_eq, List.all_eq_true, List.contains_iff_mem] at horder
  obtain ⟨hlen, hmem⟩ := horder
  exact (List.subperm_of_subset List.nodup_range hmem).perm_of_length_le (by simp [hlen])

theorem instanceOk_fanOrder_nodup (h : instanceOk p = true) : p.fanOrder.Nodup :=
  (instanceOk_fanOrder_perm h).nodup_iff.1 List.nodup_range

/-- The channel at position `j` is driven exactly when `j` is below the count: a permutation holds it at `j` alone. -/
theorem driveFans_at_position (h : instanceOk p = true) (k : Nat) {j c : Nat} (hj : p.fanOrder[j]? = some c) :
    (driveFans p k)[c]? = some (decide (j < k)) := by
  obtain ⟨hlt, rfl⟩ := List.getElem?_eq_some_iff.1 hj
  have hc : p.fanOrder[j] < p.fanAmount :=
    List.mem_range.1 ((instanceOk_fanOrder_perm h).mem_iff.2 (List.getElem_mem hlt))
  rw [driveFans_get p k _ hc, (instanceOk_fanOrder_nodup h).idxOf_getElem j hlt]

/-- The driven channels are the first `k` of the order. -/
theorem driven_perm_take (h : instanceOk p = true) (k : Nat) :
    ((List.range p.fanAmount).filter fun c => decide (p.fanOrder.idxOf c < k)).Perm (p.fanOrder.take k) := by
  have hnodup := instanceOk_fanOrder_nodup h
  refine (List.perm_ext_iff_of_nodup (List.nodup_range.filter _) (hnodup.sublist (List.take_sublist _ _))).2 fun c => ?_
  rw [List.mem_filter, (instanceOk_fanOrder_perm h).mem_iff, decide_eq_true_eq]
  exact ⟨fun ⟨hc, hlt⟩ => (List.mem_take_iff_idxOf_lt hc).2 hlt,
    fun hc => ⟨List.mem_of_mem_take hc, (List.mem_take_iff_idxOf_lt (List.mem_of_mem_take hc)).1 hc⟩⟩

theorem driveFans_count_true (h : instanceOk p = true) {k : Nat} (hk : k ≤ p.fanAmount) :
    (driveFans p k).count true = k := by
  have hlen : p.fanOrder.length = p.fanAmount := by simpa using (instanceOk_fanOrder_perm h).length_eq.symm
  calc (driveFans p k).count true
      = ((List.range p.fanAmount).filter fun c => decide (p.fanOrder.idxOf c < k)).length := by
        simp only [driveFans, List.count, List.countP_eq_length_filter, List.filter_map, List.length_map,
          Function.comp_def, beq_true]
    _ = (p.fanOrder.take k).length := (driven_perm_take h k).length_eq
    _ = k := by rw [List.length_take, hlen, Nat.min_eq_left hk]

end FanOrder

/-- Settles O32: the two facts about `DriveFans` that hold because FAN_ORDER is a permutation. -/
theorem outputsFollowTheCount : Obligations.OutputsFollowTheCount := by
  intro s hok hk
  exact ⟨driveOutputs s, rfl, rfl, driveFans_length _ _, fun _ _ => driveFans_at_position hok _,
    driveFans_count_true hok hk⟩

/-! ### One link step -/

section LinkStep

variable {c : Literals} {s t : State}

/-- How many clock events of one link step reach the satellite (R128). -/
def reachingEvents : ClockFault → Nat
  | .clean => 1
  | .missed => 0
  | .extra => 2

theorem clockEvents_eq_satReacts (f : ClockFault) (l : Link) :
    clockEvents c f l = satReacts c (reachingEvents f) l := by cases f <;> rfl

theorem execList_append {is js : List Instr} (h : execList is s = .next t) :
    execList (is ++ js) s = execList js t := by
  induction is generalizing s with
  | nil => cases h; rfl
  | cons i is ih =>
    simp only [List.cons_append, execList] at h ⊢
    cases hi : exec i s with
    | next u => rw [hi] at h; exact ih h
    | fault f => rw [hi] at h; cases h
    | refused r => rw [hi] at h; cases h

theorem execList_satSteps (n : Nat) (s : State) :
    execList (List.replicate n .satStep) s = .next { s with link := satReacts s.par.lit n s.link } := by
  induction n generalizing s with
  | zero => rfl
  | succ n ih => exact ih { s with link := satReact s.par.lit s.link }

theorem execList_resetSat (b : Bool) (s : State) :
    execList (if b then [.reset .sat] else []) s =
      .next { s with link := if b then resetSatellite s.link else s.link } := by
  cases b <;> rfl

/-- The link in a link step once the clock has inverted, the satellite's reset has come, if any, and the satellite has
reacted (R66, R318). -/
def stepLink (c : Literals) (x : LineInput) (l : Link) : Link :=
  let inverted := { l with clk := !l.clk }
  satReacts c (reachingEvents x.clock) (if x.resetSat then resetSatellite inverted else inverted)

theorem linkStepWith_eq (x : LineInput) (l : Link) :
    linkStepWith c x l = (stepLink c x l, sampledLevel x.fault (stepLink c x l).sat.d) := by
  simp only [linkStepWith, stepLink, clockEvents_eq_satReacts]

/-- The operations of a link step, one after the other. -/
theorem execList_linkStep (x : LineInput) (s : State) :
    execList ((if x.resetSat then [.reset .sat] else []) ++ List.replicate (reachingEvents x.clock) .satStep)
        { s with link := { s.link with clk := !s.link.clk } } =
      .next { s with link := stepLink s.par.lit x s.link } :=
  (execList_append (execList_resetSat _ _)).trans (execList_satSteps _ _)

theorem linkHalfCycle_of_cons {l : Link} {x : LineInput} {rest : List LineInput} (h : l.line = x :: rest) :
    linkHalfCycle c l = linkStepWith c x { l with line := rest } := by
  simp only [linkHalfCycle, nextLine, h]

theorem linkHalfCycle_of_nil {l : Link} (h : l.line = []) : linkHalfCycle c l = linkStepWith c cleanStep l := by
  simp only [linkHalfCycle, nextLine, h, cleanStep]

theorem linkSteps_one (l : Link) : linkSteps c 1 l = (linkHalfCycle c l).1 := rfl

theorem lineLevel_zero (l : Link) : lineLevel c l 0 = (linkHalfCycle c l).2 := rfl

end LinkStep

/-- Settles O12: both operations move the satellite by one clock event, and a glitch inverts the sample. -/
theorem linkStepMovesTheSatelliteOnce : Obligations.LinkStepMovesTheSatelliteOnce := by
  intro s g
  refine ⟨_, rfl, ?_⟩
  cases g
  · simp only [Bool.xor_false]; rfl
  · simp only [Bool.xor_true]; rfl

/-- Settles O13: a half-cycle of a call is `linkStepWith` under the next line input, and that is the operations run one
after the other. -/
theorem callStepsAreLinkSteps : Obligations.CallStepsAreLinkSteps := by
  refine ⟨fun s x rest hline => ?_, fun s g rest hline => ?_, fun s hline => ?_⟩
  · rw [linkSteps_one, lineLevel_zero, linkHalfCycle_of_cons hline, linkStepWith_eq]
    refine ⟨{ s with link := stepLink s.par.lit x { s.link with line := rest } }, ?_, rfl, ?_⟩
    · have hrun := execList_linkStep x { s with link := { s.link with line := rest } }
      cases hclock : x.clock <;> rw [hclock] at hrun <;> exact hrun
    · cases x.fault <;> rfl
  · rw [linkSteps_one, lineLevel_zero, linkHalfCycle_of_cons hline]
    rfl
  · rw [linkSteps_one, lineLevel_zero, linkHalfCycle_of_nil hline]
    rfl

end Sys2Proof.Proofs
end

section
/-! PROOFS. The encodings (spec/30_encoding.md): what the decoder reads in the encoding of an instruction, level strings
(R91 to R95) and event words (R102, R103) apart, and what an event word that decodes must look like (R103, R111). -/

namespace Sys2Proof.Proofs

open Machine

/-! ### Level strings -/

section Levels

variable {c : Literals} {ctx : LineCtx} {p q : Bool} {n m : Nat} {rs : List Nat}

theorem levelsOf_cons_of_pos (hn : 0 < n) :
    levelsOf q (n :: rs) = (!q) :: (List.replicate (n - 1) (!q) ++ levelsOf (!q) rs) := by
  obtain ⟨k, rfl⟩ := Nat.exists_eq_add_of_lt hn
  simp [levelsOf, List.replicate_succ]

/-- One run is read as a run of its length (R91, R95). -/
theorem decodeLevels_singleton (hn : 0 < n) : decodeLevels ctx (levelsOf ctx.prev [n]) = decodeRun ctx n := by
  rw [levelsOf_cons_of_pos hn]
  simp [decodeLevels, levelsOf, Nat.sub_add_cancel hn]

/-- Two runs or more are read as a frame (R92). -/
theorem decodeLevels_cons_cons (hm : 0 < m) (hn : 0 < n) :
    decodeLevels ctx (levelsOf ctx.prev (m :: n :: rs)) =
      decodeFrame ctx.lit (levelsOf ctx.prev (m :: n :: rs)) := by
  rw [levelsOf_cons_of_pos hm, levelsOf_cons_of_pos hn]
  simp [decodeLevels]

theorem runLengthsFrom_replicate (k : Nat) (ls : List Bool) :
    runLengthsFrom p n (List.replicate k p ++ ls) = runLengthsFrom p (n + k) ls := by
  induction k generalizing n with
  | zero => rfl
  | succ k ih => simp [List.replicate_succ, runLengthsFrom, ih, Nat.add_assoc, Nat.add_comm 1 k]

/-- The runs of a level string are those it was made of (R90, R93). -/
theorem runLengths_levelsOf (h : ∀ n ∈ rs, 0 < n) : runLengths (levelsOf q rs) = rs := by
  induction rs generalizing q with
  | nil => rfl
  | cons n rs ih =>
    obtain ⟨hn, hrs⟩ := List.forall_mem_cons.1 h
    have hend : runLengthsFrom (!q) n (levelsOf (!q) rs) = n :: runLengths (levelsOf (!q) rs) := by
      cases rs with
      | nil => rfl
      | cons m rs =>
        rw [levelsOf_cons_of_pos (hrs m (by simp))]
        simp [runLengthsFrom, runLengths]
    rw [levelsOf_cons_of_pos hn, runLengths, runLengthsFrom_replicate, Nat.add_sub_cancel' hn, hend, ih hrs]

/-- The length of the run that carries a data bit (R91). -/
def bitRun (c : Literals) (b : Bool) : Nat := if b then c.bit1Len else c.bit0Len

theorem runsOf_eq (c : Literals) (v : Sample) :
    runsOf c v = c.syncLen :: (List.range c.payloadBits).map (fun i => bitRun c (v.getLsbD i)) := rfl

theorem bitRun_bounds (hc : literalsOk c = true) (b : Bool) : 0 < bitRun c b ∧ bitRun c b ≤ c.bit1Len := by
  have hf := literalsOk_facts hc
  cases b <;> simp only [bitRun, Bool.false_eq_true, if_true, if_false] <;> omega

theorem bitRun_eq_bit1Len_iff (hc : literalsOk c = true) {b : Bool} : bitRun c b = c.bit1Len ↔ b = true := by
  have hf := literalsOk_facts hc
  have hne : c.bit0Len ≠ c.bit1Len := by omega
  cases b <;> simp [bitRun, hne]

/-- Data runs that carry the bits of `x` are read as its `n` low bits, least-significant first (R93, R94). -/
theorem decodeBits_bitRuns (hc : literalsOk c = true) (n x : Nat) :
    decodeBits c n ((List.range n).map (fun i => bitRun c (x.testBit i))) = some (x % 2 ^ n) := by
  induction n generalizing x with
  | zero => simp [decodeBits, Nat.mod_one]
  | succ n ih =>
    have hrest := ih (x / 2)
    have hpow : x % 2 ^ (n + 1) = 2 * (x / 2 % 2 ^ n) + x % 2 := by
      rw [Nat.pow_succ', Nat.mod_mul]; omega
    simp only [List.range_succ_eq_map, List.map_cons, List.map_map, Function.comp_def, Nat.succ_eq_add_one,
      Nat.testBit_succ, Nat.testBit_zero, decodeBits, hrest, Option.map_some, hpow]
    rcases Nat.mod_two_eq_zero_or_one x with hx | hx
    · have hne : c.bit0Len ≠ c.bit1Len := by have := literalsOk_facts hc; omega
      simp [hx, bitRun, hne]
    · simp [hx, bitRun]

/-- R92, R93, R94: the frame of V is read as the message that carries V. -/
theorem decodeLevels_runsOf (hc : literalsOk ctx.lit = true) (h10 : ctx.lit.payloadBits = 10) (v : Sample) :
    decodeLevels ctx (levelsOf ctx.prev (runsOf ctx.lit v)) = some (.msg v) := by
  have hf := literalsOk_facts hc
  have hpos : ∀ n ∈ runsOf ctx.lit v, 0 < n := by
    rw [runsOf_eq]
    simp only [List.forall_mem_cons, List.forall_mem_map]
    exact ⟨by omega, fun _ _ => (bitRun_bounds hc _).1⟩
  have hframe : decodeLevels ctx (levelsOf ctx.prev (runsOf ctx.lit v)) =
      decodeFrame ctx.lit (levelsOf ctx.prev (runsOf ctx.lit v)) := by
    rw [runsOf_eq, h10, List.range_succ_eq_map]
    exact decodeLevels_cons_cons (by omega) (bitRun_bounds hc _).1
  rw [hframe, decodeFrame, runLengths_levelsOf hpos, runsOf_eq]
  have hbits : decodeBits ctx.lit ctx.lit.payloadBits
      ((List.range ctx.lit.payloadBits).map fun i => bitRun ctx.lit (v.getLsbD i)) = some (v.toNat % 2 ^ 10) := by
    rw [h10]; exact decodeBits_bitRuns hc 10 v.toNat
  simp only [if_true, hbits, Option.map_some, Nat.mod_eq_of_lt v.isLt, BitVec.ofNat_toNat, BitVec.setWidth_eq]

/-! ### Single runs -/

theorem decodeRun_syncLen (hc : literalsOk ctx.lit = true) :
    decodeRun ctx ctx.lit.syncLen = some (if ctx.dphase = .payload then .runPayload3 else .s3) := by
  have hf := literalsOk_facts hc
  have h0 : ctx.lit.syncLen ≠ ctx.lit.bit0Len := by omega
  have h1 : ctx.lit.syncLen ≠ ctx.lit.bit1Len := by omega
  have h3 : ctx.lit.bit1Len < ctx.lit.syncLen := by omega
  by_cases hp : ctx.dphase = .payload <;> simp [decodeRun, h0, h1, h3, hp]

/-- R95, R147: a run that carries a bit, and as the 21st non-marker run of a search the violation. -/
theorem decodeRun_bitRun (hc : literalsOk ctx.lit = true) (b : Bool) :
    decodeRun ctx (bitRun ctx.lit b) =
      some (if ctx.dphase = .search ∧ ctx.nonSync = ctx.lit.maxSearchRuns then .runNonsync21 b
        else if b then .b1 else .b0) := by
  have hf := literalsOk_facts hc
  have hne : ctx.lit.bit1Len ≠ ctx.lit.bit0Len := by omega
  cases b <;> simp [decodeRun, bitRun, hne]

/-- R95, R144: a run longer than the marker inside a call. -/
theorem decodeRun_long (hc : literalsOk ctx.lit = true) (hcall : ctx.dphase = .search ∨ ctx.dphase = .payload) :
    decodeRun ctx (ctx.lit.syncLen + 1) = some .runLong := by
  have hf := literalsOk_facts hc
  have h0 : ctx.lit.syncLen + 1 ≠ ctx.lit.bit0Len := by omega
  have h1 : ctx.lit.syncLen + 1 ≠ ctx.lit.bit1Len := by omega
  simp [decodeRun, h0, h1, hcall]

end Levels

/-! ### The fields of an event word -/

section Fields

variable {w operand : EventWord} {i j : Instr} {ctx : LineCtx}

@[simp] theorem extractCode_eventWord (code : BitVec 5) (index : BitVec 3) (value : Byte) :
    (eventWord code index value).extractLsb' 11 5 = code :=
  (BitVec.extractLsb'_append_eq_of_le (by decide)).trans BitVec.extractLsb'_append_eq_left

@[simp] theorem codeField_eventWord (code : BitVec 5) (index : BitVec 3) (value : Byte) :
    codeField (eventWord code index value) = code.toNat := by
  rw [codeField, extractCode_eventWord]

@[simp] theorem indexField_eventWord (code : BitVec 5) (index : BitVec 3) (value : Byte) :
    indexField (eventWord code index value) = index :=
  (BitVec.extractLsb'_append_eq_of_le (by decide)).trans BitVec.extractLsb'_append_eq_right

@[simp] theorem valueField_eventWord (code : BitVec 5) (index : BitVec 3) (value : Byte) :
    valueField (eventWord code index value) = value :=
  BitVec.extractLsb'_append_eq_right

/-- R103: a word is its three fields. -/
theorem eventWord_fields (w : EventWord) : eventWord (w.extractLsb' 11 5) (indexField w) (valueField w) = w := by
  have h : w.extractLsb' 11 5 ++ w.extractLsb' 8 3 = w.extractLsb' 8 8 :=
    BitVec.extractLsb'_append_extractLsb'_eq_extractLsb' rfl
  rw [eventWord, indexField, valueField, h]
  exact BitVec.extractLsb'_append_extractLsb' (w := 8) (len := 8)

theorem eventWord_of_codeField {n : Nat} (h : codeField w = n) :
    w = eventWord (BitVec.ofNat 5 n) (indexField w) (valueField w) := by
  conv_lhs => rw [← eventWord_fields w]
  rw [← h, codeField, BitVec.ofNat_toNat, BitVec.setWidth_eq]

theorem restField_eq_append (w : EventWord) : restField w = indexField w ++ valueField w :=
  Eq.symm (BitVec.extractLsb'_append_extractLsb'_eq_extractLsb' (start₁ := 0) (len₁ := 8) (len₂ := 3) rfl)

theorem fields_of_restField_eq_zero (h : restField w = 0) : indexField w = 0 ∧ valueField w = 0 := by
  have hz : indexField w ++ valueField w = 0#3 ++ 0#8 := (restField_eq_append w).symm.trans h
  exact ⟨BitVec.extractLsb'_append_eq_left.symm.trans (congrArg (BitVec.extractLsb' 8 3) hz),
    BitVec.extractLsb'_append_eq_right.symm.trans (congrArg (BitVec.extractLsb' 0 8) hz)⟩

theorem eventWord_of_restField_eq_zero {n : Nat} (hc : codeField w = n) (h : restField w = 0) :
    eventWord (BitVec.ofNat 5 n) 0 0 = w := by
  obtain ⟨hi, hv⟩ := fields_of_restField_eq_zero h
  rw [eventWord_of_codeField hc, hi, hv]

end Fields

/-! ### Event words: from the words to the instruction and back -/

section Words

variable {w operand : EventWord} {i j : Instr} {ctx : LineCtx} {n : Nat}

theorem encode_of_decodePlain (henc : encode ctx i = plainCode (BitVec.ofNat 5 n)) (hc : codeField w = n)
    (h : decodePlain i w operand = some j) : encode ctx j = .word w operand := by
  unfold decodePlain at h
  split_ifs at h with hz
  cases h
  rw [henc, plainCode, eventWord_of_restField_eq_zero hc hz.1, hz.2]

theorem encode_of_decodeReset (hc : codeField w = 0x00) (h : decodeReset w operand = some j) :
    encode ctx j = .word w operand := by
  have hw := eventWord_of_codeField hc
  unfold decodeReset at h
  split_ifs at h with hz hmain hsat <;> cases h
  · rw [hw, hmain, hz.1, hz.2]; rfl
  · rw [hw, hsat, hz.1, hz.2]; rfl

theorem encode_of_decodeBit {f : Bool → Instr}
    (henc : ∀ b, encode ctx (f b) = .word (eventWord (BitVec.ofNat 5 n) 0 0) (if b then 1 else 0))
    (hc : codeField w = n) (h : decodeBit f w operand = some j) : encode ctx j = .word w operand := by
  unfold decodeBit at h
  split_ifs at h with hz
  cases h
  have hop : operand = 0 ∨ operand = 1 := by bv_omega
  rw [henc, eventWord_of_restField_eq_zero hc hz.1]
  rcases hop with rfl | rfl <;> rfl

theorem encode_of_decodeConvert (hc : codeField w = 0x07) (h : decodeConvert w operand = some j) :
    encode ctx j = .word w operand := by
  unfold decodeConvert at h
  split_ifs at h with hz
  cases h
  have hhigh : operand.extractLsb' 10 6 = 0#6 := by
    have hlt := hz.2
    apply BitVec.eq_of_toNat_eq
    simp only [BitVec.extractLsb'_toNat, Nat.shiftRight_eq_div_pow, BitVec.toNat_ofNat]
    omega
  have hop : 0#6 ++ operand.extractLsb' 0 10 = operand := by
    rw [← hhigh]; exact BitVec.extractLsb'_append_extractLsb' (w := 6) (len := 10)
  exact congrArg₂ Code.word (eventWord_of_restField_eq_zero hc hz.1) hop

/-- R100: the operand word of a sample is its value under the valid bit. -/
theorem packedSample_eq (v : Sample) : (0#5 ++ packRaw (some v) : EventWord) = 1#6 ++ v :=
  (BitVec.append_assoc (x₁ := 0#5) (x₂ := 1#1) (x₃ := v)).symm

theorem encode_of_decodeUpdate (hc : codeField w = 0x08) (h : decodeUpdate w operand = some j) :
    encode ctx j = .word w operand := by
  unfold decodeUpdate at h
  split_ifs at h with hz hnone hsome <;> cases h <;> have hw := eventWord_of_restField_eq_zero hc hz
  · exact congrArg₂ Code.word hw hnone.symm
  · have hop : 1#6 ++ operand.extractLsb' 0 10 = operand := by
      rw [← show operand.extractLsb' 10 6 = 1#6 from hsome]
      exact BitVec.extractLsb'_append_extractLsb' (w := 6) (len := 10)
    exact congrArg₂ Code.word hw ((packedSample_eq _).trans hop)

theorem encode_of_decodeWide (henc : encode ctx i = .word w 0) (h : decodeWide i operand = some j) :
    encode ctx j = .word w operand := by
  unfold decodeWide at h
  split_ifs at h with hz
  cases h
  rw [henc, hz]

theorem codeField_toNat (w : EventWord) : codeField w = w.toNat / 2 ^ 11 % 2 ^ 5 := by
  rw [codeField, BitVec.extractLsb'_toNat, Nat.shiftRight_eq_div_pow]

theorem encode_reservedA (hc : codeField w = 0x16 ∨ codeField w = 0x17) :
    encode ctx (.eventReservedA (w.extractLsb' 0 12)) = .word w 0 := by
  have hhigh : w.extractLsb' 12 4 = 0b1011#4 := by
    rw [codeField_toNat] at hc
    apply BitVec.eq_of_toNat_eq
    simp only [BitVec.extractLsb'_toNat, Nat.shiftRight_eq_div_pow, BitVec.toNat_ofNat]
    omega
  rw [encode, ← hhigh]
  exact congrArg (Code.word · 0) (BitVec.extractLsb'_append_extractLsb' (w := 4) (len := 12))

theorem encode_reservedB (hc : 0x18 ≤ codeField w) :
    encode ctx (.eventReservedB (w.extractLsb' 0 14)) = .word w 0 := by
  have hhigh : w.extractLsb' 14 2 = 0b11#2 := by
    rw [codeField_toNat] at hc
    apply BitVec.eq_of_toNat_eq
    simp only [BitVec.extractLsb'_toNat, Nat.shiftRight_eq_div_pow, BitVec.toNat_ofNat]
    omega
  rw [encode, ← hhigh]
  exact congrArg (Code.word · 0) (BitVec.extractLsb'_append_extractLsb' (w := 2) (len := 14))

/-- R103, R111: what a word and operand word decode to has them as its encoding, in any context. -/
theorem encode_of_decodeWord (h : decodeWord w operand = some i) : encode ctx i = .word w operand := by
  unfold decodeWord at h
  split at h
  case h_1 hc => exact encode_of_decodeReset hc h
  case h_3 hc => exact encode_of_decodeBit (fun _ => rfl) hc h
  case h_4 hc => exact encode_of_decodeBit (fun b => by cases b <;> rfl) hc h
  case h_8 hc => exact encode_of_decodeConvert hc h
  case h_9 hc => exact encode_of_decodeUpdate hc h
  case h_21 hc =>
    exact encode_of_decodeWide (i := .cfgWrite (indexField w) (valueField w))
      (congrArg (Code.word · 0) (eventWord_of_codeField hc).symm) h
  case h_23 hc => exact encode_of_decodeWide (encode_reservedA (.inl hc)) h
  case h_24 hc => exact encode_of_decodeWide (encode_reservedA (.inr hc)) h
  case h_25 =>
    simp only [imp_false] at *
    exact encode_of_decodeWide (encode_reservedB (by omega)) h
  all_goals next hc => exact encode_of_decodePlain rfl hc h

/-! ### Event words: from the instruction to the words and back -/

theorem decode_cfgWrite (index : BitVec 3) (value : Byte) :
    decode ctx (encode ctx (.cfgWrite index value)) = some (.cfgWrite index value) := by
  simp only [encode, decode, decodeWord, codeField_eventWord, indexField_eventWord, valueField_eventWord]
  rfl

theorem decode_tfConvert (v : Sample) : decode ctx (encode ctx (.tfConvert v)) = some (.tfConvert v) := by
  have hval : (0#6 ++ v : EventWord).toNat = v.toNat := (BitVec.toNat_append _ _).trans (by simp)
  have hlow : (0#6 ++ v : EventWord).extractLsb' 0 10 = v := BitVec.extractLsb'_append_eq_right
  have hword : decodeConvert (eventWord 0x07 0 0) (0#6 ++ v) = some (.tfConvert v) := by
    rw [decodeConvert, if_pos ⟨by decide, hval ▸ v.isLt⟩, hlow]
  exact hword

theorem decode_tfUpdate (raw : Option Sample) : decode ctx (encode ctx (.tfUpdate raw)) = some (.tfUpdate raw) := by
  cases raw with
  | none => rfl
  | some v =>
    have hhigh : (1#6 ++ v : EventWord).extractLsb' 10 6 = 1 := BitVec.extractLsb'_append_eq_left
    have hlow : (1#6 ++ v : EventWord).extractLsb' 0 10 = v := BitVec.extractLsb'_append_eq_right
    have hne : (1#6 ++ v : EventWord) ≠ 0 := fun h => by
      rw [h] at hhigh
      exact absurd hhigh (by decide)
    have hword : decodeUpdate (eventWord 0x08 0 0) (0#5 ++ packRaw (some v)) = some (.tfUpdate (some v)) := by
      rw [packedSample_eq, decodeUpdate, if_pos (by decide), if_neg hne, if_pos hhigh, hlow]
    exact hword

end Words

/-- R91, R92, R95, R103, for every valid choice of the line code's literals with a payload as wide as the sample. -/
theorem decode_encode {ctx : LineCtx} {i : Instr} (hc : literalsOk ctx.lit = true) (h10 : ctx.lit.payloadBits = 10)
    (hwf : i.wellFormed = true) (hin : i.standsIn ctx = true) : decode ctx (encode ctx i) = some i := by
  have hf := literalsOk_facts hc
  cases i with
  | s3 =>
    have hp : ctx.dphase ≠ .payload := by simpa [Instr.standsIn] using hin
    exact (decodeLevels_singleton (by omega)).trans (by rw [decodeRun_syncLen hc, if_neg hp])
  | b1 =>
    have hl : ¬(ctx.dphase = .search ∧ ctx.nonSync = ctx.lit.maxSearchRuns) :=
      not_and_or.2 (by simpa [Instr.standsIn] using hin)
    exact (decodeLevels_singleton (by omega)).trans ((decodeRun_bitRun hc true).trans (by rw [if_neg hl]; rfl))
  | b0 =>
    have hl : ¬(ctx.dphase = .search ∧ ctx.nonSync = ctx.lit.maxSearchRuns) :=
      not_and_or.2 (by simpa [Instr.standsIn] using hin)
    exact (decodeLevels_singleton (by omega)).trans ((decodeRun_bitRun hc false).trans (by rw [if_neg hl]; rfl))
  | runPayload3 =>
    have hp : ctx.dphase = .payload := by simpa [Instr.standsIn] using hin
    exact (decodeLevels_singleton (by omega)).trans (by rw [decodeRun_syncLen hc, if_pos hp])
  | runLong =>
    have hcall : ctx.dphase = .search ∨ ctx.dphase = .payload := by simpa [Instr.standsIn] using hin
    exact (decodeLevels_singleton (by omega)).trans (decodeRun_long hc hcall)
  | runNonsync21 two =>
    have hl : ctx.dphase = .search ∧ ctx.nonSync = ctx.lit.maxSearchRuns := by simpa [Instr.standsIn] using hin
    exact (decodeLevels_singleton (bitRun_bounds hc two).1).trans ((decodeRun_bitRun hc two).trans (by rw [if_pos hl]))
  | msg v => exact decodeLevels_runsOf hc h10 v
  | reset unit => cases unit <;> rfl
  | linkStep g => cases g <;> rfl
  | linkRun limit => cases limit <;> rfl
  | tfConvert v => exact decode_tfConvert v
  | tfUpdate raw => exact decode_tfUpdate raw
  | cfgWrite index value => exact decode_cfgWrite index value
  | eventReservedA x | eventReservedB x => cases hwf
  | _ => rfl

/-- Settles O55: the literals of R7 are valid and the payload is as wide as the sample. -/
theorem decodeInvertsEncode : Obligations.DecodeInvertsEncode := by
  intro ctx i hlit
  have hc : literalsOk ctx.lit = true := by rw [hlit]; decide
  exact decode_encode hc (by rw [hlit]; rfl)

/-! ### The rows of the opcode table -/

section Rows

variable {w : EventWord}

theorem rowMatch (i : Instr) : Laws.RowMatch.Statement i := by
  cases i with
  | s3 => exact Laws.RowMatch.s3
  | b1 => exact Laws.RowMatch.b1
  | b0 => exact Laws.RowMatch.b0
  | runPayload3 => exact Laws.RowMatch.runPayload3
  | runLong => exact Laws.RowMatch.runLong
  | runNonsync21 two => exact Laws.RowMatch.runNonsync21 two
  | msg v => exact Laws.RowMatch.msg v
  | reset unit => exact Laws.RowMatch.reset unit
  | linkRun limit => exact Laws.RowMatch.linkRun limit
  | cfgWrite index value => exact Laws.RowMatch.cfgWrite index value
  | eventReservedA x => exact Laws.RowMatch.eventReservedA x
  | eventReservedB x => exact Laws.RowMatch.eventReservedB x
  | _ => exact fun _ _ => rfl

theorem rowOf_mem_eventRows {i : Instr} {row : EventWord × EventWord} (h : Laws.rowOf i = some row) :
    row ∈ eventRows := by
  cases i <;> cases h <;> decide

/-- A word that decodes matches the row of the instruction it decodes to: it is that instruction's encoding. -/
theorem exists_row_of_decodeWord {operand : EventWord} {i : Instr} (h : decodeWord w operand = some i) :
    ∃ row ∈ eventRows, w &&& row.2 = row.1 := by
  have henc : encode { lit := Literals.given, dphase := .idle, nonSync := 0, prev := false } i = .word w operand :=
    encode_of_decodeWord h
  have hform := rowMatch i { lit := Literals.given, dphase := .idle, nonSync := 0, prev := false } (by decide)
  rw [henc] at hform
  cases hrow : Laws.rowOf i with
  | none => rw [hrow] at hform; exact hform.elim
  | some row => rw [hrow] at hform; exact ⟨row, rowOf_mem_eventRows hrow, hform⟩

/-- Bits on which the mask is all ones are the match's bits. -/
theorem bits_of_mask {m x : EventWord} {k n : Nat} (h : w &&& m = x) (hm : m.extractLsb' k n = BitVec.allOnes n) :
    w.toNat / 2 ^ k % 2 ^ n = x.toNat / 2 ^ k % 2 ^ n := by
  have hbits : w.extractLsb' k n = x.extractLsb' k n := by rw [← h, BitVec.extractLsb'_and, hm, BitVec.and_allOnes]
  simpa only [BitVec.extractLsb'_toNat, Nat.shiftRight_eq_div_pow] using congrArg BitVec.toNat hbits

theorem decodeWord_isSome_of_reset (h : w &&& 0xFEFF = 0x0000) : (decodeWord w 0).isSome = true := by
  have hhigh := bits_of_mask (k := 9) (n := 7) h (by decide)
  have hlow := bits_of_mask (k := 0) (n := 8) h (by decide)
  have hw : w = 0x0000 ∨ w = 0x0100 := by bv_omega
  rcases hw with rfl | rfl <;> rfl

theorem decodeWord_isSome_of_cfgWrite (h : w &&& 0xF800 = 0xA000) : (decodeWord w 0).isSome = true := by
  have hc : codeField w = 0x14 := (codeField_toNat w).trans (bits_of_mask h (by decide))
  rw [decodeWord, hc]
  rfl

theorem decodeWord_isSome_of_reservedA (h : w &&& 0xF000 = 0xB000) : (decodeWord w 0).isSome = true := by
  have hbits := bits_of_mask (k := 12) (n := 4) h (by decide)
  have hc : codeField w = 0x16 ∨ codeField w = 0x17 := by
    rw [codeField_toNat]
    bv_omega
  rcases hc with hc | hc <;> rw [decodeWord, hc] <;> rfl

theorem decodeWord_isSome_of_reservedB (h : w &&& 0xC000 = 0xC000) : (decodeWord w 0).isSome = true := by
  have hbits := bits_of_mask (k := 14) (n := 2) h (by decide)
  have hc : 0x18 ≤ codeField w := by
    rw [codeField_toNat]
    bv_omega
  have hlt := codeField_lt w
  rw [decodeWord]
  generalize codeField w = n at hc hlt
  interval_cases n <;> rfl

/-- The rows of R102 whose mask leaves bits open are RESET, CFG.WRITE and the unused codes. -/
theorem eventRows_cases : ∀ row ∈ eventRows,
    row.2 = 0xFFFF ∨ row = (0x0000, 0xFEFF) ∨ row = (0xA000, 0xF800) ∨
      row = (0xB000, 0xF000) ∨ row = (0xC000, 0xC000) := by simp [eventRows]

theorem exactRows_decode : (eventRows.all fun row => row.2 != 0xFFFF || (decodeWord row.1 0).isSome) = true := by
  decide

theorem decodeWord_isSome_of_row {row : EventWord × EventWord} (hrow : row ∈ eventRows) (h : w &&& row.2 = row.1) :
    (decodeWord w 0).isSome = true := by
  rcases eventRows_cases row hrow with hmask | rfl | rfl | rfl | rfl
  · have hx : (decodeWord row.1 0).isSome = true := by
      simpa [hmask] using List.all_eq_true.1 exactRows_decode row hrow
    rw [hmask] at h
    rwa [← h, show w &&& 0xFFFF = w from BitVec.and_allOnes] at hx
  · exact decodeWord_isSome_of_reset h
  · exact decodeWord_isSome_of_cfgWrite h
  · exact decodeWord_isSome_of_reservedA h
  · exact decodeWord_isSome_of_reservedB h

/-- Two rows share a word only if each match agrees with the other under both masks. -/
theorem matches_agree {x y : EventWord × EventWord} (hx : w &&& x.2 = x.1) (hy : w &&& y.2 = y.1) :
    x.1 &&& y.2 = y.1 &&& x.2 := by
  rw [← hx, ← hy, BitVec.and_assoc, BitVec.and_assoc, BitVec.and_comm x.2]

theorem eventRows_pairwise : eventRows.Pairwise (fun x y => x.1 &&& y.2 ≠ y.1 &&& x.2) := by decide

end Rows

/-- Settles O56: a word that decodes is an encoding, which has the form of its row; and the matches of two rows differ
where both masks look. -/
theorem eventWordsAreTheTableRows : Obligations.EventWordsAreTheTableRows := by
  refine ⟨fun w => ⟨fun h => ?_, fun ⟨_, hrow, h⟩ => decodeWord_isSome_of_row hrow h⟩,
    eventRows_pairwise.imp fun hne w ⟨hx, hy⟩ => hne (matches_agree hx hy), fun _ _ _ _ => encode_of_decodeWord⟩
  obtain ⟨i, hi⟩ := Option.isSome_iff_exists.1 h
  exact exists_row_of_decodeWord hi

/-- Settles O57, by running the decoder on each. -/
theorem sampleEncodingsDecode : Obligations.SampleEncodingsDecode := by
  refine ⟨?_, ?_, ?_, ?_, ?_, ?_, ?_, ?_, ?_, ?_, ?_, ?_, ?_, ?_⟩ <;> decide

/-- Settles O53: both meanings are that refusal. -/
theorem unusedEventCodesAreRefused : Obligations.UnusedEventCodesAreRefused := ⟨fun _ _ => rfl, fun _ _ => rfl⟩

end Sys2Proof.Proofs
end

section
/-! PROOFS. The symbols of the line code and the frame as instructions (spec/30_encoding.md R91, R92, R95; log entry 7):
what a run shown to a decode call does, and what a run emitted between two calls does. -/

namespace Sys2Proof.Proofs

open Machine

/-! ### The satellite over several clock events -/

section Emitted

variable {c : Literals} {n : Nat} {l l' : Link}

theorem satReacts_add (m n : Nat) (l : Link) : satReacts c (m + n) l = satReacts c n (satReacts c m l) := by
  induction m generalizing l with
  | zero => rw [Nat.zero_add]; rfl
  | succ m ih => rw [Nat.succ_add]; exact ih _

/-- Clock events write the satellite and its ADC port only. -/
theorem satReacts_eq (n : Nat) (l : Link) :
    satReacts c n l = { l with sat := (satReacts c n l).sat, adc := (satReacts c n l).adc } := by
  obtain ⟨hclk, hdec, hraw, hline, hfree, -⟩ := satReacts_frame (c := c) n l
  rw [← hclk, ← hdec, ← hraw, ← hline, ← hfree]

/-- What clock events write depends on the satellite and its ADC port only. -/
theorem satReacts_congr (hs : l'.sat = l.sat) (ha : l'.adc = l.adc) :
    (satReacts c n l').sat = (satReacts c n l).sat ∧ (satReacts c n l').adc = (satReacts c n l).adc := by
  induction n generalizing l l' with
  | zero => exact ⟨hs, ha⟩
  | succ n ih =>
    have hstep : (satReact c l').sat = (satReact c l).sat ∧ (satReact c l').adc = (satReact c l).adc := by
      have hahead : sampleAhead l' = sampleAhead l := by simp only [sampleAhead, hs, ha]
      simp only [satReact, hs, hahead]
      split_ifs <;> exact ⟨rfl, rfl⟩
    exact ih hstep.1 hstep.2

end Emitted

/-! ### A run shown to the decoder -/

section Shown

variable {c : Literals} {n : Nat} {l : Link} {d : Decoder} {s : State}

/-- The link after a call has made `n` link steps of a shown run: as many clock events have reached the satellite, the
clock has inverted as often (R66), and the decoder's registers are `d`. -/
def shownLink (c : Literals) (n : Nat) (d : Decoder) (l : Link) : Link :=
  { l with
    sat := (satReacts c n l).sat
    adc := (satReacts c n l).adc
    clk := l.clk ^^ decide (n % 2 = 1)
    dec := d }

theorem shownLink_shownLink (m n : Nat) (d d' : Decoder) (ls : List LineInput) :
    shownLink c n d' { shownLink c m d l with line := ls } = { shownLink c (m + n) d' l with line := ls } := by
  obtain ⟨hs, ha⟩ := satReacts_congr (c := c) (n := n) (l' := { shownLink c m d l with line := ls })
    (l := satReacts c m l) rfl rfl
  have hclk : ((l.clk ^^ decide (m % 2 = 1)) ^^ decide (n % 2 = 1)) = (l.clk ^^ decide ((m + n) % 2 = 1)) := by
    rcases Nat.mod_two_eq_zero_or_one m with hm | hm <;> rcases Nat.mod_two_eq_zero_or_one n with hn | hn <;>
      simp [Nat.add_mod, hm, hn]
  simp only [shownLink] at hs ha ⊢
  rw [satReacts_add, hs, ha, hclk]

/-- A link step on a line that shows a level samples that level (R66, R110). -/
theorem linkHalfCycle_showLevel {b : Bool} {ls : List LineInput} (h : l.line = showLevel b :: ls) :
    linkHalfCycle c l = ({ shownLink c 1 l.dec l with line := ls }, b) := by
  obtain ⟨hs, ha⟩ := satReacts_congr (c := c) (n := 1) (l' := { l with clk := !l.clk, line := ls }) (l := l) rfl rfl
  rw [linkHalfCycle_of_cons h]
  have hlink : stepLink c (showLevel b) { l with line := ls } = satReacts c 1 { l with clk := !l.clk, line := ls } := rfl
  rw [linkStepWith_eq, hlink, satReacts_eq, hs, ha]
  simp [shownLink, showLevel, sampledLevel]

theorem count_add_succ (b : BitVec 3) (k : Nat) : b + 1 + BitVec.ofNat 3 k = b + BitVec.ofNat 3 (k + 1) := by
  bv_omega

/-- `k` more half-cycles of the run's level, which the limit admits, then the inversion: the run is measured (R143). -/
theorem runLoop_shown {k more : Nat} (hk : k ≤ more)
    (hline : l.line = (List.replicate k l.dec.level ++ [!l.dec.level]).map showLevel) :
    runLoop c more l =
      ({ shownLink c (k + 1) { l.dec with level := !l.dec.level, count := l.dec.count + BitVec.ofNat 3 k } l with
          line := [] },
        .length (l.dec.count + BitVec.ofNat 3 k).toNat) := by
  induction k generalizing more l with
  | zero =>
    rw [runLoop, linkHalfCycle_showLevel hline]
    simp [shownLink]
  | succ k ih =>
    obtain ⟨more, rfl⟩ : ∃ m, more = m + 1 := ⟨more - 1, by omega⟩
    rw [runLoop, linkHalfCycle_showLevel hline]
    have hnext := ih (more := more) (l := { shownLink c 1 { l.dec with count := l.dec.count + 1 } l with
      line := (List.replicate k l.dec.level ++ [!l.dec.level]).map showLevel }) (by omega) rfl
    rw [shownLink_shownLink] at hnext
    simp only [shownLink, count_add_succ, Nat.add_comm 1] at hnext ⊢
    simpa using hnext

/-- More half-cycles of the run's level than the limit admits: too long, at the limit (R144). -/
theorem runLoop_shown_tooLong {more : Nat} {ls : List LineInput}
    (hline : l.line = List.replicate (more + 1) (showLevel l.dec.level) ++ ls) :
    runLoop c more l =
      ({ shownLink c (more + 1) { l.dec with count := l.dec.count + BitVec.ofNat 3 (more + 1) } l with line := ls },
        .tooLong) := by
  induction more generalizing l with
  | zero =>
    rw [runLoop, linkHalfCycle_showLevel hline]
    simp [shownLink]
  | succ more ih =>
    rw [runLoop, linkHalfCycle_showLevel hline]
    have hnext := ih (l := { shownLink c 1 { l.dec with count := l.dec.count + 1 } l with
      line := List.replicate (more + 1) (showLevel l.dec.level) ++ ls }) rfl
    rw [shownLink_shownLink] at hnext
    simp only [shownLink, count_add_succ, Nat.add_comm 1] at hnext ⊢
    simpa using hnext

theorem shownLink_of_line (d' : Decoder) (ls : List LineInput) :
    { shownLink c n d { l with dec := d', line := ls } with line := l.line } = shownLink c n d l := by
  obtain ⟨hs, ha⟩ := satReacts_congr (c := c) (n := n) (l' := { l with dec := d', line := ls }) (l := l) rfl rfl
  simp only [shownLink, hs, ha]

theorem one_add_ofNat (h : 1 ≤ n) : 1 + BitVec.ofNat 3 (n - 1) = BitVec.ofNat 3 n := by
  obtain ⟨k, rfl⟩ := Nat.exists_eq_add_of_le' h
  simpa using count_add_succ 0 k

/-- The decoder has measured a run of `n`: its level is that of the next run (R143). -/
def measured (n : Nat) (d : Decoder) : Decoder := { d with level := !d.level, count := BitVec.ofNat 3 n }

/-- The decoder has met a run longer than the limit: it has counted one half-cycle more (R144). -/
def overrun (limit : Nat) (d : Decoder) : Decoder := { d with count := BitVec.ofNat 3 (limit + 1) }

/-- A shown run within the limit is measured, and costs its length (R143). -/
theorem measureShown_of_le {limit : Nat} (h1 : 1 ≤ n) (hn : n ≤ limit) (h8 : n < 8) :
    measureShown c limit n l = (shownLink c n (measured n l.dec) l, .length n) := by
  have hrun := runLoop_shown (c := c) (k := n - 1) (more := limit - 1)
    (l := { l with dec := { l.dec with count := 1 }, line := shownRun l.dec.level n }) (by omega) rfl
  rw [one_add_ofNat h1, Nat.sub_add_cancel h1, BitVec.toNat_ofNat, Nat.mod_eq_of_lt h8] at hrun
  simp only [measureShown, measureRun, hrun]
  exact congrArg (·, _) (shownLink_of_line { l.dec with count := 1 } (shownRun l.dec.level n))

/-- A shown run beyond the limit is too long, and costs the limit (R144). -/
theorem measureShown_of_lt {limit : Nat} (h1 : 1 ≤ limit) (hn : limit < n) :
    measureShown c limit n l = (shownLink c limit (overrun limit l.dec) l, .tooLong) := by
  have hline : shownRun l.dec.level n = List.replicate (limit - 1 + 1) (showLevel l.dec.level) ++
      (List.replicate (n - 1 - limit) (showLevel l.dec.level) ++ [showLevel (!l.dec.level)]) := by
    rw [← List.append_assoc, List.replicate_append_replicate, show limit - 1 + 1 + (n - 1 - limit) = n - 1 by omega,
      ← List.map_replicate]
    exact List.map_append
  have hrun := runLoop_shown_tooLong (c := c) (more := limit - 1)
    (l := { l with dec := { l.dec with count := 1 }, line := shownRun l.dec.level n }) hline
  rw [Nat.sub_add_cancel h1, show (1 : BitVec 3) + BitVec.ofNat 3 limit = BitVec.ofNat 3 (limit + 1) from
    one_add_ofNat (n := limit + 1) (by omega)] at hrun
  simp only [measureShown, measureRun, hrun]
  exact congrArg (·, _) (shownLink_of_line { l.dec with count := 1 } (shownRun l.dec.level n))

/-! ### Shown runs while searching -/

theorem lineRun_search (h : s.link.dec.dphase = .search) : lineRun n s = .next (searchShown n s) := by
  simp only [lineRun, h]

theorem lineRun_payload (h : s.link.dec.dphase = .payload) : lineRun n s = .next (payloadShown n s) := by
  simp only [lineRun, h]

theorem lineRun_idle (h : s.link.dec.dphase = .idle) : lineRun n s = emitRun n s := by
  simp only [lineRun, h]

theorem lineRun_settle (h : s.link.dec.dphase = .settle) : lineRun n s = .refused .symbolCannotStandHere := by
  simp only [lineRun, h]

theorem exec_bit (b : Bool) (s : State) : exec (if b then .b1 else .b0) s = lineRun (bitRun s.par.lit b) s := by
  cases b <;> rfl

/-- The state in which the call has aborted after `n` link steps (R140, R153). -/
def abortedAfter (n : Nat) (d : Decoder) (cause : Cause) (s : State) : State :=
  { s with
    link := { shownLink s.par.lit n { d with dphase := .idle } s.link with raw := none }
    ret := .decode (.noMessage cause) }

/-- The decoder waits for the first payload run: the marker has ended the search (R140, R148). -/
def afterMarker (c : Literals) (d : Decoder) : Decoder :=
  { measured c.syncLen d with dphase := .payload, value := 0, bitIndex := 0 }

/-- The decoder has counted a run that is no marker (R146). -/
def afterNonSync (n : Nat) (d : Decoder) : Decoder := { measured n d with nonSync := d.nonSync + 1 }

/-- R95, R140, R148: the marker leads to a cleared payload. -/
theorem searchShown_syncLen (hc : literalsOk s.par.lit = true) :
    searchShown s.par.lit.syncLen s =
      { s with link := shownLink s.par.lit s.par.lit.syncLen (afterMarker s.par.lit s.link.dec) s.link } := by
  have hf := literalsOk_facts hc
  have hm := measureShown_of_le (c := s.par.lit) (n := s.par.lit.syncLen) (l := s.link) (by omega) le_rfl (by omega)
  simp only [searchShown, hm, judgeSearchRun, if_true]
  rfl

theorem measureShown_bitRun (hc : literalsOk c = true) (b : Bool) {limit : Nat} (h : c.bit1Len ≤ limit) :
    measureShown c limit (bitRun c b) l =
      (shownLink c (bitRun c b) (measured (bitRun c b) l.dec) l, .length (bitRun c b)) := by
  have hf := literalsOk_facts hc
  have hb := bitRun_bounds hc b
  exact measureShown_of_le hb.1 (by omega) (by omega)

/-- How a bit's run is judged while searching (R146, R147). -/
theorem judgeSearchRun_bitRun (hc : literalsOk c = true) (b : Bool) :
    judgeSearchRun c (.length (bitRun c b)) (shownLink c n d l) =
      (shownLink c n { d with nonSync := d.nonSync + 1 } l,
        if c.maxSearchRuns < (d.nonSync + 1).toNat then some (.noMessage .syncFailure) else none) := by
  have hf := literalsOk_facts hc
  have hb := bitRun_bounds hc b
  simp only [judgeSearchRun, if_neg (show bitRun c b ≠ c.syncLen by omega)]
  by_cases h : c.maxSearchRuns < (d.nonSync + 1).toNat
  · rw [if_pos h]; exact if_pos h
  · rw [if_neg h]; exact if_neg h

/-- R146: a bit's run is counted while fewer than the tolerated runs have been. -/
theorem searchShown_bitRun (hc : literalsOk s.par.lit = true) (b : Bool)
    (h : s.link.dec.nonSync.toNat < s.par.lit.maxSearchRuns) :
    searchShown (bitRun s.par.lit b) s =
      { s with link :=
          shownLink s.par.lit (bitRun s.par.lit b) (afterNonSync (bitRun s.par.lit b) s.link.dec) s.link } := by
  have hf := literalsOk_facts hc
  have hcount : ¬s.par.lit.maxSearchRuns < ((measured (bitRun s.par.lit b) s.link.dec).nonSync + 1).toNat := by
    simp only [measured]; bv_omega
  simp only [searchShown, measureShown_bitRun (l := s.link) hc b (limit := s.par.lit.syncLen) (by omega),
    judgeSearchRun_bitRun hc, if_neg hcount]
  rfl

/-- R147: the next one aborts the search when it has ended. -/
theorem searchShown_bitRun_last (hc : literalsOk s.par.lit = true) (b : Bool)
    (h : s.link.dec.nonSync.toNat = s.par.lit.maxSearchRuns) :
    searchShown (bitRun s.par.lit b) s =
      abortedAfter (bitRun s.par.lit b) (afterNonSync (bitRun s.par.lit b) s.link.dec) .syncFailure s := by
  have hf := literalsOk_facts hc
  have hcount : s.par.lit.maxSearchRuns < ((measured (bitRun s.par.lit b) s.link.dec).nonSync + 1).toNat := by
    simp only [measured]; bv_omega
  simp only [searchShown, measureShown_bitRun (l := s.link) hc b (limit := s.par.lit.syncLen) (by omega),
    judgeSearchRun_bitRun hc, if_pos hcount]
  rfl

/-- R95, R144: a run beyond the marker's length aborts the search there. -/
theorem searchShown_long (hc : literalsOk s.par.lit = true) (hn : s.par.lit.syncLen < n) :
    searchShown n s =
      abortedAfter s.par.lit.syncLen (overrun s.par.lit.syncLen s.link.dec) .searchRunTooLong s := by
  have hf := literalsOk_facts hc
  have hm := measureShown_of_lt (c := s.par.lit) (l := s.link) (by omega) hn
  simp only [searchShown, hm, judgeSearchRun]
  rfl

/-! ### Shown runs in the payload -/

/-- The value once a bit has been read at `bitIndex` (R148). -/
def valueWithBit (b : Bool) (d : Decoder) : Sample :=
  if b then d.value ||| (1#10 <<< d.bitIndex.toNat) else d.value

theorem getLsbD_valueWithBit (b : Bool) (d : Decoder) {j : Nat} (hj : j < 10) :
    (valueWithBit b d).getLsbD j = if j = d.bitIndex.toNat ∧ b = true then true else d.value.getLsbD j := by
  cases b
  · simp [valueWithBit]
  · have hone : (1#10 <<< d.bitIndex.toNat).getLsbD j = decide (j = d.bitIndex.toNat) := by
      rw [BitVec.getLsbD_shiftLeft, BitVec.getLsbD_one]
      grind
    by_cases hb : j = d.bitIndex.toNat
    · have hlt : d.bitIndex.toNat < 10 := hb ▸ hj
      simp [valueWithBit, hb, hlt]
    · simp [valueWithBit, hone, hb]

/-- The decoder once a bit's run has been measured and taken (R148). -/
def afterBit (c : Literals) (b : Bool) (d : Decoder) : Decoder :=
  { measured (bitRun c b) d with value := valueWithBit b d, bitIndex := d.bitIndex + 1 }

theorem takeBit_shownLink {c : Literals} (hc : literalsOk c = true) (b : Bool) (l : Link) :
    takeBit c (bitRun c b) (shownLink c (bitRun c b) (measured (bitRun c b) l.dec) l) =
      shownLink c (bitRun c b) (afterBit c b l.dec) l := by
  simp only [takeBit, bitRun_eq_bit1Len_iff hc]
  rfl

/-- R148: a bit before the last is taken. -/
theorem payloadShown_bitRun (hc : literalsOk s.par.lit = true) (b : Bool)
    (h : s.link.dec.bitIndex.toNat + 1 < s.par.lit.payloadBits) :
    payloadShown (bitRun s.par.lit b) s =
      { s with link := shownLink s.par.lit (bitRun s.par.lit b) (afterBit s.par.lit b s.link.dec) s.link } := by
  have hf := literalsOk_facts hc
  have hmore : (s.link.dec.bitIndex + 1).toNat < s.par.lit.payloadBits := by bv_omega
  simp only [payloadShown, measureShown_bitRun (l := s.link) hc b le_rfl, takeBit_shownLink hc]
  exact if_pos hmore

/-- R140, R148: the last bit ends the call with the assembled value. -/
theorem payloadShown_bitRun_last (hc : literalsOk s.par.lit = true) (b : Bool)
    (h : s.link.dec.bitIndex.toNat + 1 = s.par.lit.payloadBits) :
    payloadShown (bitRun s.par.lit b) s =
      { s with
        link := finishCall (shownLink s.par.lit (bitRun s.par.lit b) (afterBit s.par.lit b s.link.dec) s.link)
          (valueWithBit b s.link.dec)
        ret := .decode (.value (valueWithBit b s.link.dec)) } := by
  have hf := literalsOk_facts hc
  have hmore : ¬(s.link.dec.bitIndex + 1).toNat < s.par.lit.payloadBits := by bv_omega
  simp only [payloadShown, measureShown_bitRun (l := s.link) hc b le_rfl, takeBit_shownLink hc]
  exact if_neg hmore

/-- What a bit's run leaves in the link, the last one or not. -/
theorem payloadShown_bitRun_link (hc : literalsOk s.par.lit = true) (b : Bool)
    (h : s.link.dec.bitIndex.toNat + 1 ≤ s.par.lit.payloadBits) :
    ∃ p raw, (payloadShown (bitRun s.par.lit b) s).link =
      { shownLink s.par.lit (bitRun s.par.lit b) { afterBit s.par.lit b s.link.dec with dphase := p } s.link with
        raw := raw } := by
  rcases h.lt_or_eq with hlt | heq
  · exact ⟨s.link.dec.dphase, s.link.raw, congrArg State.link (payloadShown_bitRun hc b hlt)⟩
  · exact ⟨.idle, _, congrArg State.link (payloadShown_bitRun_last hc b heq)⟩

/-- R95, R148: a run beyond a bit's length aborts the call there, however long it would have been. -/
theorem payloadShown_long (hc : literalsOk s.par.lit = true) (hn : s.par.lit.bit1Len < n) :
    payloadShown n s =
      abortedAfter s.par.lit.bit1Len (overrun s.par.lit.bit1Len s.link.dec) .payloadRunTooLong s := by
  have hf := literalsOk_facts hc
  have hm := measureShown_of_lt (c := s.par.lit) (l := s.link) (by omega) hn
  simp only [payloadShown, hm]
  rfl

/-! ### The violation classes inside a call -/

theorem exec_runLong_of_search (h : s.link.dec.dphase = .search) :
    exec .runLong s = .next (searchShown (s.par.lit.syncLen + 1) s) := by simp only [exec, execRunLong, h]

theorem exec_runLong_of_payload (h : s.link.dec.dphase = .payload) :
    exec .runLong s = .next (payloadShown (s.par.lit.syncLen + 1) s) := by simp only [exec, execRunLong, h]

theorem exec_runPayload3_of_payload (h : s.link.dec.dphase = .payload) :
    exec .runPayload3 s = .next (payloadShown s.par.lit.syncLen s) := if_pos h

theorem exec_runNonsync21_of_search (two : Bool) (h : s.link.dec.dphase = .search)
    (hn : s.link.dec.nonSync.toNat = s.par.lit.maxSearchRuns) :
    exec (.runNonsync21 two) s = .next (searchShown (bitRun s.par.lit two) s) := if_pos ⟨h, hn⟩

/-! ### A whole frame shown to a call -/

theorem callRuns_idle (ns : List Nat) (h : s.link.dec.dphase = .idle) : callRuns ns s = s := by
  cases ns <;> simp only [callRuns, h]

theorem callRuns_payload (ns : List Nat) (h : s.link.dec.dphase = .payload) :
    callRuns (n :: ns) s = callRuns ns (payloadShown n s) := by simp only [callRuns, h]

theorem callRuns_search (ns : List Nat) (h : s.link.dec.dphase = .search) :
    callRuns (n :: ns) s = callRuns ns (searchShown n s) := by simp only [callRuns, h]

/-- The call has read the low `bitIndex` bits of `v` (R148). -/
def HasReadBits (v : Sample) (d : Decoder) : Prop :=
  d.dphase = .payload ∧ ∀ j < 10, d.value.getLsbD j = (decide (j < d.bitIndex.toNat) && v.getLsbD j)

/-- The call has ended with the value `v`, the line inputs untouched (R140). -/
def EndsWith (v : Sample) (s t : State) : Prop :=
  ∃ l, t = { s with link := l, ret := .decode (.value v) } ∧ l.raw = some v ∧ l.dec.dphase = .idle ∧
    l.dec.value = v ∧ l.line = s.link.line

theorem getLsbD_valueWithBit_of_read {v : Sample} (h : HasReadBits v d) {j : Nat} (hj : j < 10) :
    (valueWithBit (v.getLsbD d.bitIndex.toNat) d).getLsbD j = (decide (j < d.bitIndex.toNat + 1) && v.getLsbD j) := by
  rw [getLsbD_valueWithBit _ _ hj, h.2 j hj]
  grind

/-- The remaining runs of the payload of `v` end the call with `v`, from whatever bit on (R94, R148). -/
theorem callRuns_bits_endsWith (hc : literalsOk s.par.lit = true) (h10 : s.par.lit.payloadBits = 10) (v : Sample)
    (k : Nat) (hk : s.link.dec.bitIndex.toNat + (k + 1) = 10) (hread : HasReadBits v s.link.dec) :
    EndsWith v s (callRuns ((List.range' s.link.dec.bitIndex.toNat (k + 1)).map
      fun i => bitRun s.par.lit (v.getLsbD i)) s) := by
  induction k generalizing s with
  | zero =>
    have hval : valueWithBit (v.getLsbD s.link.dec.bitIndex.toNat) s.link.dec = v := by
      refine BitVec.eq_of_getLsbD_eq fun j hj => ?_
      rw [getLsbD_valueWithBit_of_read hread hj, hk, decide_eq_true hj, Bool.true_and]
    simp only [List.range'_succ, List.map_cons]
    rw [callRuns_payload _ hread.1, payloadShown_bitRun_last hc _ (by omega), hval]
    exact ⟨_, rfl, rfl, rfl, hval, rfl⟩
  | succ k ih =>
    have hnext : (s.link.dec.bitIndex + 1).toNat = s.link.dec.bitIndex.toNat + 1 := by bv_omega
    have hrun := payloadShown_bitRun hc (v.getLsbD s.link.dec.bitIndex.toNat) (by omega)
    rw [List.range'_succ, List.map_cons, callRuns_payload _ hread.1]
    have hrec := ih (s := payloadShown (bitRun s.par.lit (v.getLsbD s.link.dec.bitIndex.toNat)) s)
    rw [hrun] at hrec ⊢
    simp only [shownLink, afterBit, hnext] at hrec ⊢
    exact hrec hc h10 (by omega) ⟨hread.1, fun j hj => by
      simp only [hnext]; exact getLsbD_valueWithBit_of_read hread hj⟩

theorem exec_msg_of_search (v : Sample) (h : s.link.dec.dphase = .search) :
    exec (.msg v) s = .next (callRuns (runsOf s.par.lit v) s) := by simp only [exec, execMsg, h]

theorem exec_msg_of_payload (v : Sample) (h : s.link.dec.dphase = .payload) :
    exec (.msg v) s = .next (callRuns (runsOf s.par.lit v) s) := by simp only [exec, execMsg, h]

/-- R94, R95: a searching call decodes the frame of `v` to `v`. -/
theorem callRuns_runsOf_search (hc : literalsOk s.par.lit = true) (h10 : s.par.lit.payloadBits = 10) (v : Sample)
    (h : s.link.dec.dphase = .search) : EndsWith v s (callRuns (runsOf s.par.lit v) s) := by
  have hbits := callRuns_bits_endsWith
    (s := { s with link := shownLink s.par.lit s.par.lit.syncLen (afterMarker s.par.lit s.link.dec) s.link })
    hc h10 v 9 rfl ⟨rfl, fun j _ => by simp [shownLink, afterMarker]⟩
  rw [runsOf_eq, callRuns_search _ h, searchShown_syncLen hc, h10, List.range_eq_range']
  exact hbits

/-- R95, R148: a call that reads its payload meets the frame's marker. -/
theorem callRuns_runsOf_payload (hc : literalsOk s.par.lit = true) (v : Sample) (h : s.link.dec.dphase = .payload) :
    callRuns (runsOf s.par.lit v) s =
      abortedAfter s.par.lit.bit1Len (overrun s.par.lit.bit1Len s.link.dec) .payloadRunTooLong s := by
  have hf := literalsOk_facts hc
  rw [runsOf_eq, callRuns_payload _ h, payloadShown_long hc (by omega), callRuns_idle _ rfl]

end Shown

theorem literalsOk_given : literalsOk Literals.given = true := by decide

/-- Settles O4: the marker, then the ten data runs by induction; in the payload the marker is too long. -/
theorem msgShownToADecodeCall : Obligations.MsgShownToADecodeCall := by
  intro s v hlit
  have hc : literalsOk s.par.lit = true := hlit ▸ literalsOk_given
  refine ⟨fun hd => ?_, fun hd => ?_⟩
  · obtain ⟨l, ht, hraw, hidle, hval, hline⟩ := callRuns_runsOf_search hc (by rw [hlit]; rfl) v hd
    exact ⟨_, (exec_msg_of_search v hd).trans (congrArg _ ht), rfl, hraw, hidle, hval, hline⟩
  · exact ⟨_, (exec_msg_of_payload v hd).trans (congrArg _ (callRuns_runsOf_payload hc v hd)), rfl, rfl, rfl, rfl⟩

/-- Settles O5: each symbol by the rule for its run, at the given lengths. -/
theorem symbolsWhileSearching : Obligations.SymbolsWhileSearching := by
  intro s hlit hd
  have hc : literalsOk s.par.lit = true := hlit ▸ literalsOk_given
  have hmax : s.par.lit.maxSearchRuns = 20 := by rw [hlit]; rfl
  have hsync : s.par.lit.syncLen = 3 := by rw [hlit]; rfl
  have hbit : ∀ b, bitRun s.par.lit b = if b then 2 else 1 := by rw [hlit]; decide
  have hexec : ∀ b, exec (if b then .b1 else .b0) s = .next (searchShown (bitRun s.par.lit b) s) := fun b =>
    (exec_bit b s).trans (lineRun_search hd)
  refine ⟨?_, fun hn => ?_, fun hn => ?_, fun hn two => ?_, ?_⟩
  · refine ⟨_, _, lineRun_search hd, execList_satSteps 3 s, ?_⟩
    rw [searchShown_syncLen hc, hsync]
    simp [shownLink, afterMarker, measured, hsync]
  · refine ⟨_, _, hexec true, execList_satSteps 2 s, ?_⟩
    rw [searchShown_bitRun hc true (by omega), hbit]
    simp [shownLink, afterNonSync, measured]
  · refine ⟨_, _, hexec false, execList_satSteps 1 s, ?_⟩
    rw [searchShown_bitRun hc false (by omega), hbit]
    simp [shownLink, afterNonSync, measured]
  · have hfull : s.link.dec.nonSync.toNat = s.par.lit.maxSearchRuns := hn.trans hmax.symm
    have hnon := exec_runNonsync21_of_search two hd hfull
    refine ⟨(hexec two).trans hnon.symm, _, _, hnon, execList_satSteps _ s, ?_⟩
    rw [searchShown_bitRun_last hc two hfull, ← hbit]
    refine ⟨rfl, rfl, ?_, rfl⟩
    simp only [abortedAfter, shownLink, afterNonSync]
    bv_omega
  · refine ⟨_, _, exec_runLong_of_search hd, execList_satSteps 3 s, ?_⟩
    rw [searchShown_long hc (Nat.lt_succ_self _), hsync]
    simp [abortedAfter, shownLink, overrun]

/-- Settles O6: a bit's run is taken, and any longer run aborts alike. -/
theorem symbolsInThePayload : Obligations.SymbolsInThePayload := by
  intro s hlit hd hi
  have hc : literalsOk s.par.lit = true := hlit ▸ literalsOk_given
  have h10 : s.par.lit.payloadBits = 10 := by rw [hlit]; rfl
  have hlen : s.par.lit.syncLen = 3 ∧ s.par.lit.bit1Len = 2 := by rw [hlit]; decide
  have hbit : ∀ b, bitRun s.par.lit b = if b then 2 else 1 := by rw [hlit]; decide
  have hlong : ∀ n, 2 < n → payloadShown n s = abortedAfter 2 (overrun 2 s.link.dec) .payloadRunTooLong s :=
    fun n hn => by rw [payloadShown_long hc (by omega), hlen.2]
  have hviolation := (exec_runPayload3_of_payload hd).trans (congrArg _ (hlong s.par.lit.syncLen (by omega)))
  refine ⟨fun b => ?_, ?_, ?_, ?_⟩
  · obtain ⟨p, raw, hlink⟩ := payloadShown_bitRun_link hc b (by omega)
    refine ⟨_, _, (exec_bit b s).trans (lineRun_payload hd), execList_satSteps _ s, ?_⟩
    rw [← hbit]
    refine ⟨by rw [hlink]; rfl, by rw [hlink]; rfl, by rw [hlink]; rfl, by rw [hlink]; rfl, ?_, fun j hj => ?_,
      fun hlt => ?_, fun heq => ?_⟩
    · rw [hlink]
      simp only [shownLink, afterBit]
      bv_omega
    · rw [hlink]
      exact getLsbD_valueWithBit b _ hj
    · rw [payloadShown_bitRun hc b (by omega)]
      exact ⟨hd, rfl, rfl⟩
    · rw [payloadShown_bitRun_last hc b (by omega)]
      exact ⟨rfl, rfl, rfl⟩
  · rw [hviolation]; exact (lineRun_payload hd).trans (congrArg _ (hlong _ (by omega)))
  · rw [hviolation]; exact (exec_runLong_of_payload hd).trans (congrArg _ (hlong _ (by omega)))
  · refine ⟨_, _, hviolation, execList_satSteps 2 s, ?_⟩
    simp [abortedAfter, shownLink, overrun]

/-! ### A run emitted between two calls -/

section BetweenCalls

variable {c : Literals} {n : Nat} {l : Link} {s : State}

/-- The satellite `k` half-cycles into the run that it was about to start in `l` (R121). -/
def midRun (k : BitVec 2) (l : Link) : Link :=
  { l with
    sat := { r := l.sat.r, k := k, d := !l.sat.d, sample := (sampleAhead l).1 }
    adc := (sampleAhead l).2 }

/-- The satellite at the boundary after that run (R121). -/
def nextRun (c : Literals) (l : Link) : Link :=
  { l with
    sat :=
      { r := if l.sat.r.toNat + 1 = c.runsPerMsg then 0 else l.sat.r + 1, k := 0, d := !l.sat.d,
        sample := (sampleAhead l).1 }
    adc := (sampleAhead l).2 }

theorem satReact_start (hk : l.sat.k = 0) :
    satReact c l = if 1 = runLen c l.sat.r (sampleAhead l).1 then nextRun c l else midRun 1 l := by
  simp [satReact, hk, nextRun, midRun]

theorem satReact_midRun {k : BitVec 2} (hk : k ≠ 0) :
    satReact c (midRun k l) =
      if k.toNat + 1 = runLen c l.sat.r (sampleAhead l).1 then nextRun c l else midRun (k + 1) l := by
  have hahead : sampleAhead (midRun k l) = sampleAhead l := if_neg fun h => hk h.1
  have hlevel : (if (midRun k l).sat.k = 0 then !(midRun k l).sat.d else (midRun k l).sat.d) = !l.sat.d := if_neg hk
  simp only [satReact, hahead, hlevel]
  rfl

theorem satReacts_inside_run (hk : l.sat.k = 0) (h4 : runLen c l.sat.r (sampleAhead l).1 ≤ 4) (m : Nat)
    (hm : m + 1 < runLen c l.sat.r (sampleAhead l).1) : satReacts c (m + 1) l = midRun (BitVec.ofNat 2 (m + 1)) l := by
  induction m with
  | zero => exact (satReact_start hk).trans (if_neg (by omega))
  | succ m ih =>
    have hne : BitVec.ofNat 2 (m + 1) ≠ 0 := by bv_omega
    rw [satReacts_add (m + 1) 1, ih (by omega)]
    refine (satReact_midRun hne).trans ((if_neg ?_).trans ?_)
    · bv_omega
    · exact congrArg (midRun · l) (BitVec.ofNat_add (m + 1) 1).symm

/-- A whole run from its boundary: as many clock events as it is long lead to the next boundary (R121, R122). -/
theorem satReacts_run (hc : literalsOk c = true) (hk : l.sat.k = 0) (hn : runLen c l.sat.r (sampleAhead l).1 = n) :
    satReacts c n l = nextRun c l := by
  obtain ⟨hpos, h4⟩ := runLen_bounds hc l.sat.r (sampleAhead l).1
  obtain ⟨m, rfl⟩ : ∃ m, n = m + 1 := ⟨n - 1, by omega⟩
  cases m with
  | zero => exact (satReact_start hk).trans (if_pos hn.symm)
  | succ m =>
    have hne : BitVec.ofNat 2 (m + 1) ≠ 0 := by bv_omega
    rw [satReacts_add (m + 1) 1, satReacts_inside_run hk h4 m (by omega)]
    exact (satReact_midRun hne).trans (if_pos (by bv_omega))

theorem emitRun_of_fits (hk : s.link.sat.k = 0) (hr : s.link.sat.r.toNat < s.par.lit.runsPerMsg)
    (hn : runLen s.par.lit s.link.sat.r (sampleAhead s.link).1 = n) :
    emitRun n s = execList (List.replicate n .satStep) s :=
  (if_pos ⟨hk, hr, hn⟩).trans (execList_satSteps n s).symm

theorem emitRun_refused
    (h : s.link.sat.k = 0 → runLen s.par.lit s.link.sat.r (sampleAhead s.link).1 ≠ n) :
    emitRun n s = .refused .symbolCannotStandHere :=
  if_neg fun ⟨hk, _, hn⟩ => h hk hn

/-- R121, R122: a run that fits is emitted whole. -/
theorem execList_run (hc : literalsOk s.par.lit = true) (hk : s.link.sat.k = 0)
    (hn : runLen s.par.lit s.link.sat.r (sampleAhead s.link).1 = n) :
    execList (List.replicate n .satStep) s = .next { s with link := nextRun s.par.lit s.link } := by
  rw [execList_satSteps, satReacts_run hc hk hn]

theorem runLen_of_ne_zero {r : BitVec 4} (h : r ≠ 0) (v : Sample) :
    runLen c r v = bitRun c (v.getLsbD (r.toNat - 1)) := if_neg h

/-- The marker's length is that of run 0 alone (R122). -/
theorem runLen_eq_syncLen_iff (hc : literalsOk c = true) {r : BitVec 4} {v : Sample} :
    runLen c r v = c.syncLen ↔ r = 0 := by
  refine ⟨fun h => ?_, fun h => h ▸ rfl⟩
  by_contra hr
  have hf := literalsOk_facts hc
  have hb := bitRun_bounds hc (v.getLsbD (r.toNat - 1))
  rw [runLen_of_ne_zero hr] at h
  omega

/-- Runs that carry different bits have different lengths (R122). -/
theorem bitRun_injective (hc : literalsOk c = true) {b b' : Bool} (h : bitRun c b = bitRun c b') : b = b' := by
  have hb := bitRun_eq_bit1Len_iff hc (b := b)
  rw [h, bitRun_eq_bit1Len_iff hc] at hb
  exact (Bool.eq_iff_iff.2 hb).symm

theorem sampleAhead_fst_of_boundary (hk : l.sat.k = 0) :
    (sampleAhead l).1 = if l.sat.r = 1 then portSample l.adc 0 else l.sat.sample := by
  by_cases hr : l.sat.r = 1
  · rw [sampleAhead, if_pos ⟨hk, hr⟩, if_pos hr, samplePort_fst]
  · rw [sampleAhead, if_neg (fun h => hr h.2), if_neg hr]

end BetweenCalls

/-- Settles O7: the symbol that fits is the run's clock events, which lead to the next boundary; the lengths tell the two
data symbols apart. -/
theorem symbolsBetweenCalls : Obligations.SymbolsBetweenCalls := by
  intro s hlit hd hk
  have hc : literalsOk s.par.lit = true := hlit ▸ literalsOk_given
  have h11 : s.par.lit.runsPerMsg = 11 := by rw [hlit]; rfl
  have hsync : s.par.lit.syncLen = 3 := by rw [hlit]; rfl
  have hbit : ∀ b, bitRun s.par.lit b = if b then 2 else 1 := by rw [hlit]; decide
  refine ⟨fun hr => ?_, fun v hv h1 h10 b hb => ?_⟩
  · have hn : runLen s.par.lit s.link.sat.r (sampleAhead s.link).1 = s.par.lit.syncLen :=
      (runLen_eq_syncLen_iff hc).2 hr
    have hemit : exec .s3 s = execList (List.replicate s.par.lit.syncLen .satStep) s :=
      (lineRun_idle hd).trans (emitRun_of_fits hk (by rw [hr, h11]; decide) hn)
    refine ⟨hsync ▸ hemit, _, hemit.trans (execList_run hc hk hn), ?_, ?_⟩
    · simp [nextRun, sampleAhead, hr, hk, h11]
    · simp [nextRun, sampleAhead, hr]
  · have hr : s.link.sat.r ≠ 0 := fun h => by simp [h] at h1
    have hahead : (sampleAhead s.link).1 = v := (sampleAhead_fst_of_boundary hk).trans hv.symm
    have hn : runLen s.par.lit s.link.sat.r (sampleAhead s.link).1 = bitRun s.par.lit b := by
      rw [hahead, runLen_of_ne_zero hr, hb]
    have hemit : exec (if b then .b1 else .b0) s = execList (List.replicate (bitRun s.par.lit b) .satStep) s :=
      (exec_bit b s).trans ((lineRun_idle hd).trans (emitRun_of_fits hk (by omega) hn))
    refine ⟨hbit b ▸ hemit, ?_, _, hemit.trans (execList_run hc hk hn), ?_, rfl⟩
    · have hother : exec (if !b then .b1 else .b0) s = .refused .symbolCannotStandHere :=
        (exec_bit (!b) s).trans ((lineRun_idle hd).trans (emitRun_refused fun _ h =>
          Bool.not_ne_self b (bitRun_injective hc (h.symm.trans hn))))
      cases b <;> exact hother
    · have hlast : s.link.sat.r.toNat + 1 = s.par.lit.runsPerMsg ↔ s.link.sat.r = 10 := by
        rw [h11]; bv_omega
      simp only [nextRun, hahead, hlast]

/-- Settles O8: in the settle wait no run, between calls only the run that is next, and each violation class in its context
only. -/
theorem misplacedSymbolsAreRefused : Obligations.MisplacedSymbolsAreRefused := by
  intro s hlit
  have hc : literalsOk s.par.lit = true := hlit ▸ literalsOk_given
  have hmax : s.par.lit.maxSearchRuns = 20 := by rw [hlit]; rfl
  refine ⟨fun hd i hi => ?_, fun hd v => ?_, fun hd hpos => ⟨?_, fun v => ?_⟩, fun hd hpos => ?_, fun hd => ?_,
    fun hd => ?_, fun hctx two => ?_⟩
  · simp only [List.mem_cons, List.not_mem_nil, or_false] at hi
    rcases hi with rfl | rfl | rfl <;> exact lineRun_settle hd
  · simp only [exec, execMsg, hd]
  · exact (lineRun_idle hd).trans (emitRun_refused fun hk h => hpos ⟨(runLen_eq_syncLen_iff hc).1 h, hk⟩)
  · simp only [exec, execMsg, hd]
    exact if_neg hpos
  · have hrefused : ∀ b, lineRun (bitRun s.par.lit b) s = .refused .symbolCannotStandHere := fun b =>
      (lineRun_idle hd).trans (emitRun_refused fun hk h => by
        have hf := literalsOk_facts hc
        have hb := bitRun_bounds hc b
        have hsync := (runLen_eq_syncLen_iff hc (v := (sampleAhead s.link).1)).2 (hpos.resolve_left (not_not.2 hk))
        omega)
    exact ⟨hrefused true, hrefused false⟩
  · exact if_neg hd
  · rcases hd with hd | hd <;> simp only [exec, execRunLong, hd]
  · exact if_neg fun ⟨hd, hn⟩ => hctx.elim (· hd) (· (hn.trans hmax))

end Sys2Proof.Proofs
end

section
/-! PROOFS. The SatelliteEncoder (spec/40_satellite_encoder.md): one clock event (R121, R122), and the runs of a whole
message (R127). -/

namespace Sys2Proof.Proofs

open Machine

/-! ### One clock event -/

section ClockEvent

variable {c : Literals} {l : Link}

theorem samplePort_snd {α : Type} (p : Port α) :
    (samplePort p).2 = { level := (samplePort p).1, draws := p.draws.tail } := by
  obtain ⟨v, ds⟩ := p
  cases ds <;> rfl

/-- The sample changes exactly as run 1 starts (R121, R123). -/
theorem sampleAhead_fst (l : Link) :
    (sampleAhead l).1 = if l.sat.k = 0 ∧ l.sat.r = 1 then portSample l.adc 0 else l.sat.sample := by
  simp only [sampleAhead]
  split
  · exact samplePort_fst _
  · rfl

/-- The ADC is drawn exactly as run 1 starts, and its port keeps the draw (R121, R68). -/
theorem sampleAhead_snd (l : Link) :
    (sampleAhead l).2 =
      if l.sat.k = 0 ∧ l.sat.r = 1 then { level := (sampleAhead l).1, draws := l.adc.draws.tail } else l.adc := by
  simp only [sampleAhead]
  split
  · exact samplePort_snd _
  · rfl

/-- A legal position stays inside its run when run 1 draws a new sample: it does so before its first half-cycle only. -/
theorem position_inside_run_ahead (hc : literalsOk c = true) (h : SatPosition c l) :
    l.sat.k.toNat < runLen c l.sat.r (sampleAhead l).1 := by
  by_cases hs : l.sat.k = 0 ∧ l.sat.r = 1
  · rw [hs.1]; exact (runLen_bounds hc _ _).1
  · rw [sampleAhead, if_neg hs]; exact h.2

theorem satReact_adc (l : Link) : (satReact c l).adc = (sampleAhead l).2 := by
  simp only [satReact]; split <;> rfl

theorem satReact_sat_of_ends (h : l.sat.k.toNat + 1 = runLen c l.sat.r (sampleAhead l).1) :
    (satReact c l).sat =
      { r := if l.sat.r.toNat = c.payloadBits then 0 else l.sat.r + 1, k := 0,
        d := if l.sat.k = 0 then !l.sat.d else l.sat.d, sample := (sampleAhead l).1 } := by
  simp only [satReact, if_pos h, Literals.runsPerMsg, Nat.add_right_cancel_iff]

theorem satReact_sat_of_goes_on (h : l.sat.k.toNat + 1 ≠ runLen c l.sat.r (sampleAhead l).1) :
    (satReact c l).sat =
      { r := l.sat.r, k := l.sat.k + 1, d := if l.sat.k = 0 then !l.sat.d else l.sat.d,
        sample := (sampleAhead l).1 } := by
  simp only [satReact, if_neg h]

end ClockEvent

/-- Settles O1: the clock event ends its run or goes on in it, and no run is longer than `k` can count. -/
theorem satStepFollowsTheRun : Obligations.SatStepFollowsTheRun := by
  intro s r k starts sample n hok hr hk
  have hc := instanceOk_literals hok
  have hsample : sample = (sampleAhead s.link).1 := (sampleAhead_fst s.link).symm
  have hn : n = runLen s.par.lit s.link.sat.r (sampleAhead s.link).1 := by rw [← hsample]; rfl
  have hadc : (satReact s.par.lit s.link).adc =
      if starts then { level := sample, draws := s.link.adc.draws.tail } else s.link.adc := by
    rw [hsample, satReact_adc, sampleAhead_snd]
  refine ⟨_, rfl, congrArg (fun l => { s with link := l }) (satReacts_eq (c := s.par.lit) 1 s.link), ?_⟩
  by_cases hend : k.toNat + 1 = n
  · have hsat := satReact_sat_of_ends (hend.trans hn)
    exact ⟨congrArg Sat.d hsat, (congrArg Sat.sample hsat).trans hsample.symm,
      fun _ => ⟨congrArg Sat.k hsat, congrArg Sat.r hsat⟩, fun h => absurd hend h, hadc⟩
  · have hsat := satReact_sat_of_goes_on fun h => hend (h.trans hn.symm)
    have hcount : (k + 1).toNat = k.toNat + 1 := by
      have hinside : k.toNat < n := hn ▸ position_inside_run_ahead hc ⟨hr, hk⟩
      have h4 : n ≤ 4 := hn ▸ (runLen_bounds hc _ _).2
      clear_value k n
      bv_omega
    exact ⟨congrArg Sat.d hsat, (congrArg Sat.sample hsat).trans hsample.symm, fun h => absurd h hend,
      fun _ => ⟨(congrArg (·.k.toNat) hsat).trans hcount, (congrArg Sat.r hsat :)⟩, hadc⟩

/-! ### Runs in a row -/

section Message

variable {c : Literals} {l l' : Link} {rs : List Nat}

/-- From the boundary `l` the satellite emits runs of these lengths and is then at the boundary `l'` (R121, R122). -/
inductive Emits (c : Literals) : Link → List Nat → Link → Prop where
  | none (l : Link) : Emits c l [] l
  | run {l l' : Link} {n : Nat} {rs : List Nat} (hk : l.sat.k = 0) (hn : runLen c l.sat.r (sampleAhead l).1 = n)
      (h : Emits c (nextRun c l) rs l') : Emits c l (n :: rs) l'

/-- Runs take as many clock events as they have half-cycles. -/
theorem Emits.satReacts_sum (hc : literalsOk c = true) (h : Emits c l rs l') : satReacts c rs.sum l = l' := by
  induction h with
  | none l => rfl
  | run hk hn _ ih => rw [List.sum_cons, satReacts_add, satReacts_run hc hk hn, ih]

/-- Inside its first run a satellite drives the inverse of the level before it (R121). -/
theorem satReacts_level_in_run (hc : literalsOk c = true) (hk : l.sat.k = 0) {i : Nat}
    (hi : i < runLen c l.sat.r (sampleAhead l).1) : (satReacts c (i + 1) l).sat.d = !l.sat.d := by
  rcases Nat.lt_or_eq_of_le hi with hlt | hlast
  · rw [satReacts_inside_run hk (runLen_bounds hc _ _).2 i hlt]; rfl
  · rw [satReacts_run hc hk hlast.symm]; rfl

/-- Runs drive the line with their level string (R93). -/
theorem Emits.level (hc : literalsOk c = true) (h : Emits c l rs l') {i : Nat} {b : Bool}
    (hb : (levelsOf l.sat.d rs)[i]? = some b) : (satReacts c (i + 1) l).sat.d = b := by
  induction h generalizing i with
  | none l => simp [levelsOf] at hb
  | @run l l' n rs hk hn _ ih =>
    rw [levelsOf] at hb
    rcases Nat.lt_or_ge i n with hi | hi
    · rw [satReacts_level_in_run hc hk (hn ▸ hi)]
      simpa [List.getElem?_append, hi] using hb
    · obtain ⟨j, rfl⟩ := Nat.exists_eq_add_of_le hi
      rw [Nat.add_assoc, satReacts_add, satReacts_run hc hk hn]
      exact ih (by simpa [List.getElem?_append, nextRun] using hb)

theorem length_levelsOf (q : Bool) (rs : List Nat) : (levelsOf q rs).length = rs.sum := by
  induction rs generalizing q with
  | nil => rfl
  | cons n rs ih => simp [levelsOf, ih]

/-- The satellite at the next message boundary: `m` more runs have inverted the level, and `v` is latched (R127). -/
def messageEnd (m : Nat) (v : Sample) (adc : Port Sample) (l : Link) : Link :=
  { l with sat := { r := 0, k := 0, d := l.sat.d ^^ decide (m % 2 = 1), sample := v }, adc := adc }

theorem messageEnd_nextRun (m : Nat) (v : Sample) (adc : Port Sample) (l : Link) :
    messageEnd m v adc (nextRun c l) = messageEnd (m + 1) v adc l := by
  have hlevel : (!l.sat.d ^^ decide (m % 2 = 1)) = (l.sat.d ^^ decide ((m + 1) % 2 = 1)) := by
    rcases Nat.mod_two_eq_zero_or_one m with hm | hm <;> simp [Nat.add_mod, hm]
  simp only [messageEnd, nextRun, hlevel]

/-- A run other than run 1 keeps the sample and the port of the run before it (R123). -/
theorem sampleAhead_nextRun (hr : (nextRun c l).sat.r ≠ 1) : sampleAhead (nextRun c l) = sampleAhead l :=
  if_neg fun h => hr h.2

/-- The run after the last one is run 0 of the next message (R121). -/
theorem nextRun_r (l : Link) :
    (nextRun c l).sat.r = if l.sat.r.toNat = c.payloadBits then 0 else l.sat.r + 1 := by
  simp only [nextRun, Literals.runsPerMsg, Nat.add_right_cancel_iff]

/-- The last data run leads to the next message. -/
theorem nextRun_last (hr : l.sat.r.toNat = c.payloadBits) :
    nextRun c l = messageEnd 1 (sampleAhead l).1 (sampleAhead l).2 l := by
  simp [nextRun, messageEnd, Literals.runsPerMsg, hr]

/-- Run `i + 1` carries bit `i` (R122). -/
theorem runLen_dataRun {r : BitVec 4} {i : Nat} (hr : r.toNat = i + 1) (v : Sample) :
    runLen c r v = bitRun c (v.getLsbD i) := by
  rw [runLen_of_ne_zero (by bv_omega), hr, Nat.add_sub_cancel]

/-- The data runs from bit `i` on, least-significant bit first, carry the sample that run 1 draws (R93, R127). -/
theorem emits_dataRuns (hc : literalsOk c = true) (m i : Nat) (him : i + m + 1 = c.payloadBits) (hk : l.sat.k = 0)
    (hr : l.sat.r.toNat = i + 1) :
    Emits c l ((List.range' i (m + 1)).map fun j => bitRun c ((sampleAhead l).1.getLsbD j))
      (messageEnd (m + 1) (sampleAhead l).1 (sampleAhead l).2 l) := by
  have hf := literalsOk_facts hc
  induction m generalizing i l with
  | zero =>
    refine .run hk (runLen_dataRun hr _) ?_
    rw [nextRun_last (by omega)]
    exact .none _
  | succ m ih =>
    have hnext : (nextRun c l).sat.r.toNat = i + 1 + 1 := by
      rw [nextRun_r, if_neg (by omega)]
      bv_omega
    have hahead : sampleAhead (nextRun c l) = sampleAhead l := sampleAhead_nextRun (by bv_omega)
    have hrest := ih (l := nextRun c l) (i + 1) (by omega) rfl hnext
    rw [hahead, messageEnd_nextRun] at hrest
    exact .run hk (runLen_dataRun hr _) hrest

/-- R127: from a message boundary the satellite emits the runs of its next ADC draw. -/
theorem emits_message (hc : literalsOk c = true) (hr : l.sat.r = 0) (hk : l.sat.k = 0) :
    Emits c l (runsOf c (portSample l.adc 0))
      (messageEnd c.runsPerMsg (portSample l.adc 0) (samplePort l.adc).2 l) := by
  have hf := literalsOk_facts hc
  obtain ⟨m, hm⟩ : ∃ m, c.payloadBits = m + 1 := ⟨c.payloadBits - 1, by omega⟩
  have hnext : (nextRun c l).sat.r = 1 := by simp [nextRun_r, hr, hm]
  have hport : (nextRun c l).adc = l.adc := by simp [nextRun, sampleAhead, hr]
  have hahead : sampleAhead (nextRun c l) = (portSample l.adc 0, (samplePort l.adc).2) := by
    rw [sampleAhead, if_pos ⟨rfl, hnext⟩, hport, ← samplePort_fst]
  have hdata := emits_dataRuns hc (l := nextRun c l) m 0 (by omega) rfl (by rw [hnext]; rfl)
  rw [hahead, messageEnd_nextRun, ← hm, ← List.range_eq_range'] at hdata
  exact .run hk ((runLen_eq_syncLen_iff hc).2 hr) hdata

/-- R93: with the given lengths a message takes `13 + popcount(V)` half-cycles. -/
theorem sum_runsOf_given (v : Sample) : (runsOf Literals.given v).sum = 13 + popcount v := by
  have hbit : ∀ b, bitRun Literals.given b = 1 + if b then 1 else 0 := by decide
  simp only [runsOf_eq, hbit, List.sum_cons, List.sum_map_add, popcount]
  simp [Literals.given, ← Nat.add_assoc]

end Message

/-- Settles O2: the clock events of the message's runs, whose levels and whose end are those of `emits_message`. -/
theorem satelliteEmitsTheMessage : Obligations.SatelliteEmitsTheMessage := by
  intro s v hlit hr hk hv
  have hc : literalsOk s.par.lit = true := hlit ▸ literalsOk_given
  have hsum : (runsOf s.par.lit v).sum = 13 + popcount v := by rw [hlit]; exact sum_runsOf_given v
  have hmsg := emits_message hc hr hk
  rw [hv] at hmsg
  refine ⟨(length_levelsOf _ _).trans hsum, fun n b hb => ⟨_, execList_satSteps _ s, hmsg.level hc hb⟩, _,
    execList_satSteps _ s, ?_⟩
  rw [← hsum, hmsg.satReacts_sum hc, hlit]
  exact ⟨by simp [messageEnd, Literals.runsPerMsg, Literals.given], rfl⟩

/-- Settles O3: V stands in front of the ADC's draws, so it is what the message carries. -/
theorem msgEmitsOneMessage : Obligations.MsgEmitsOneMessage := by
  intro s v hlit hd hr hk
  have hc : literalsOk s.par.lit = true := hlit ▸ literalsOk_given
  have hmsg := emits_message (l := { s.link with adc := { s.link.adc with draws := v :: s.link.adc.draws } }) hc hr hk
  have hexec : exec (.msg v) s = emitMessage v s := by simp only [exec, execMsg, hd]
  rw [hexec, emitMessage, if_pos ⟨hr, hk⟩]
  refine congrArg (fun l => Host.Outcome.next { s with link := l }) ((hmsg.satReacts_sum hc).trans ?_)
  simp [messageEnd, samplePort, portSample, hlit, Literals.runsPerMsg, Literals.given]

end Sys2Proof.Proofs
end

section
/-! PROOFS. LINK.RUN (spec/41_link_decoder.md R143, R144) on any line: what the decoder does to its own registers
changes nothing on the line, so a run measurement is link steps and the levels they sample. -/

namespace Sys2Proof.Proofs

open Machine

section LinkSteps

variable {c : Literals} {m n : Nat} {l : Link} {d d' : Decoder} {b : Bool} {ls ls' : List Bool}

/-! ### The line does not see the decoder -/

theorem satReact_withDec : satReact c { l with dec := d } = { satReact c l with dec := d } := by
  simp only [satReact, sampleAhead]
  split_ifs <;> rfl

theorem satReacts_withDec (n : Nat) (l : Link) :
    satReacts c n { l with dec := d } = { satReacts c n l with dec := d } := by
  induction n generalizing l with
  | zero => rfl
  | succ n ih => rw [satReacts, satReact_withDec, ih, satReacts]

theorem linkStepWith_withDec (x : LineInput) :
    linkStepWith c x { l with dec := d } =
      ({ (linkStepWith c x l).1 with dec := d }, (linkStepWith c x l).2) := by
  have hstep : stepLink c x { l with dec := d } = { stepLink c x l with dec := d } := by
    simp only [stepLink]
    split
    · exact satReacts_withDec _ (resetSatellite { l with clk := !l.clk })
    · exact satReacts_withDec _ { l with clk := !l.clk }
  simp only [linkStepWith_eq, hstep]

theorem linkHalfCycle_withDec :
    linkHalfCycle c { l with dec := d } = ({ (linkHalfCycle c l).1 with dec := d }, (linkHalfCycle c l).2) := by
  obtain ⟨sat, clk, dec, raw, adc, line, free⟩ := l
  cases line with
  | nil => exact linkStepWith_withDec (l := ⟨sat, clk, dec, raw, adc, [], free⟩) cleanStep
  | cons x xs => exact linkStepWith_withDec (l := ⟨sat, clk, dec, raw, adc, xs, free⟩) x

theorem linkSteps_withDec (n : Nat) (l : Link) :
    linkSteps c n { l with dec := d } = { linkSteps c n l with dec := d } := by
  induction n generalizing l with
  | zero => rfl
  | succ n ih => rw [linkSteps, linkHalfCycle_withDec, ih, linkSteps]

theorem linkSteps_add (m n : Nat) (l : Link) : linkSteps c (m + n) l = linkSteps c n (linkSteps c m l) := by
  induction m generalizing l with
  | zero => rw [Nat.zero_add]; rfl
  | succ m ih => rw [Nat.succ_add]; exact ih _

/-- Each link step takes one line input (R66). -/
@[simp] theorem linkSteps_line (n : Nat) (l : Link) : (linkSteps c n l).line = l.line.drop n := by
  induction n generalizing l with
  | zero => rfl
  | succ n ih => rw [linkSteps, ih, (linkHalfCycle_moved l).1.line, List.drop_drop, Nat.add_comm 1]

/-- The link after `n` link steps, the decoder's registers being `d`. -/
def linkAfter (c : Literals) (n : Nat) (d : Decoder) (l : Link) : Link := { linkSteps c n l with dec := d }

@[simp] theorem linkAfter_dec : (linkAfter c n d l).dec = d := rfl

@[simp] theorem linkAfter_line : (linkAfter c n d l).line = l.line.drop n := linkSteps_line n l

@[simp] theorem linkAfter_withDec : linkAfter c n d' { l with dec := d } = linkAfter c n d' l := by
  simp only [linkAfter, linkSteps_withDec]

@[simp] theorem linkAfter_linkAfter : linkAfter c n d' (linkAfter c m d l) = linkAfter c (m + n) d' l := by
  simp only [linkAfter, linkSteps_withDec, linkSteps_add]

theorem linkHalfCycle_fst_withDec : { (linkHalfCycle c l).1 with dec := d } = linkAfter c 1 d l := rfl

/-! ### What the line shows -/

theorem shows_nil : l.shows c [] := rfl

theorem shows_cons : l.shows c (b :: ls) ↔ (linkHalfCycle c l).2 = b ∧ (linkHalfCycle c l).1.shows c ls := by
  simp only [Link.shows, List.length_cons, List.range_succ_eq_map, List.map_cons, List.map_map, List.cons.injEq]
  rfl

theorem shows_append : l.shows c (ls ++ ls') ↔ l.shows c ls ∧ (linkSteps c ls.length l).shows c ls' := by
  induction ls generalizing l with
  | nil => exact (and_iff_right shows_nil).symm
  | cons b ls ih => simp only [List.cons_append, shows_cons, ih, and_assoc, List.length_cons, linkSteps]

theorem shows_withDec : ({ l with dec := d } : Link).shows c ls ↔ l.shows c ls := by
  induction ls generalizing l with
  | nil => exact iff_of_true shows_nil shows_nil
  | cons b ls ih => simp only [shows_cons, linkHalfCycle_withDec, ih]

@[simp] theorem shows_linkAfter : (linkAfter c n d l).shows c ls ↔ (linkSteps c n l).shows c ls := shows_withDec

end LinkSteps

/-! ### One run -/

section OneRun

variable {c : Literals} {n k more limit : Nat} {l : Link}

/-- The sample shows an inversion: the run is over (R143). -/
theorem runLoop_of_inversion (h : (linkHalfCycle c l).2 = !l.dec.level) :
    runLoop c more l =
      (linkAfter c 1 { l.dec with level := !l.dec.level } l, .length l.dec.count.toNat) := by
  have hdec := (linkHalfCycle_moved (c := c) l).2
  rw [runLoop]
  simp only [h, hdec, linkHalfCycle_fst_withDec]
  simp

/-- The sample shows the run's level, and the limit admits one more half-cycle (R143). -/
theorem runLoop_of_equal (h : (linkHalfCycle c l).2 = l.dec.level) :
    runLoop c (more + 1) l = runLoop c more (linkAfter c 1 { l.dec with count := l.dec.count + 1 } l) := by
  have hdec := (linkHalfCycle_moved (c := c) l).2
  rw [runLoop]
  simp only [h, hdec, linkHalfCycle_fst_withDec]
  simp

/-- The sample shows the run's level for the first time beyond the limit (R144). -/
theorem runLoop_zero_of_equal (h : (linkHalfCycle c l).2 = l.dec.level) :
    runLoop c 0 l = (linkAfter c 1 { l.dec with count := l.dec.count + 1 } l, .tooLong) := by
  have hdec := (linkHalfCycle_moved (c := c) l).2
  rw [runLoop]
  simp only [h, hdec, linkHalfCycle_fst_withDec]
  simp

/-- A run measurement is link steps and changes of the decoder's registers. -/
theorem runLoop_linkAfter (more : Nat) (l : Link) :
    ∃ k ≤ more + 1, ∃ d, (runLoop c more l).1 = linkAfter c k d l := by
  induction more generalizing l with
  | zero =>
    by_cases h : (linkHalfCycle c l).2 = l.dec.level
    · exact ⟨1, le_rfl, _, congrArg Prod.fst (runLoop_zero_of_equal h)⟩
    · exact ⟨1, le_rfl, _, congrArg Prod.fst (runLoop_of_inversion (Bool.eq_not.2 h))⟩
  | succ more ih =>
    by_cases h : (linkHalfCycle c l).2 = l.dec.level
    · obtain ⟨k, hk, d, hd⟩ := ih (linkAfter c 1 { l.dec with count := l.dec.count + 1 } l)
      exact ⟨1 + k, by omega, d, by rw [runLoop_of_equal h, hd, linkAfter_linkAfter]⟩
    · exact ⟨1, by omega, _, congrArg Prod.fst (runLoop_of_inversion (Bool.eq_not.2 h))⟩

/-- `k` more half-cycles of the run's level, which the limit admits, then the inversion (R143). -/
theorem runLoop_of_shows (hk : k ≤ more) (h : l.shows c (List.replicate k l.dec.level ++ [!l.dec.level])) :
    runLoop c more l =
      (linkAfter c (k + 1) { l.dec with level := !l.dec.level, count := l.dec.count + BitVec.ofNat 3 k } l,
        .length (l.dec.count + BitVec.ofNat 3 k).toNat) := by
  induction k generalizing more l with
  | zero => simpa using runLoop_of_inversion (more := more) (shows_cons.1 h).1
  | succ k ih =>
    obtain ⟨more, rfl⟩ : ∃ m, more = m + 1 := ⟨more - 1, by omega⟩
    obtain ⟨hb, hrest⟩ := shows_cons.1 h
    have hnext := ih (more := more) (l := linkAfter c 1 { l.dec with count := l.dec.count + 1 } l) (by omega)
      (shows_linkAfter.2 hrest)
    rw [runLoop_of_equal hb, hnext, linkAfter_linkAfter, Nat.add_comm 1]
    simp only [linkAfter_dec, count_add_succ]

/-- More half-cycles of the run's level than the limit admits (R144). -/
theorem runLoop_of_shows_tooLong (h : l.shows c (List.replicate (more + 1) l.dec.level)) :
    runLoop c more l =
      (linkAfter c (more + 1) { l.dec with count := l.dec.count + BitVec.ofNat 3 (more + 1) } l, .tooLong) := by
  induction more generalizing l with
  | zero => simpa using runLoop_zero_of_equal (shows_cons.1 h).1
  | succ more ih =>
    obtain ⟨hb, hrest⟩ := shows_cons.1 h
    have hnext := ih (l := linkAfter c 1 { l.dec with count := l.dec.count + 1 } l) (shows_linkAfter.2 hrest)
    rw [runLoop_of_equal hb, hnext, linkAfter_linkAfter, Nat.add_comm 1]
    simp only [linkAfter_dec, count_add_succ]

/-- R143: a run within the limit is measured, and costs its length. -/
theorem measureRun_of_shows (h1 : 1 ≤ n) (hn : n ≤ limit) (h8 : n < 8)
    (h : l.shows c (List.replicate (n - 1) l.dec.level ++ [!l.dec.level])) :
    measureRun c limit l = (linkAfter c n (measured n l.dec) l, .length n) := by
  have hrun := runLoop_of_shows (more := limit - 1) (k := n - 1) (l := { l with dec := { l.dec with count := 1 } })
    (by omega) (shows_withDec.2 h)
  rw [linkAfter_withDec, one_add_ofNat h1, Nat.sub_add_cancel h1, BitVec.toNat_ofNat, Nat.mod_eq_of_lt h8] at hrun
  exact hrun

/-- R144: a run beyond the limit is too long, and costs the limit. -/
theorem measureRun_of_shows_tooLong (h1 : 1 ≤ limit) (h : l.shows c (List.replicate limit l.dec.level)) :
    measureRun c limit l = (linkAfter c limit (overrun limit l.dec) l, .tooLong) := by
  have hrun := runLoop_of_shows_tooLong (more := limit - 1) (l := { l with dec := { l.dec with count := 1 } })
    (shows_withDec.2 (Nat.sub_add_cancel h1 ▸ h))
  have hcount : (1 : BitVec 3) + BitVec.ofNat 3 limit = BitVec.ofNat 3 (limit + 1) :=
    one_add_ofNat (n := limit + 1) (by omega)
  rw [linkAfter_withDec, Nat.sub_add_cancel h1, hcount] at hrun
  exact hrun

theorem measureRun_linkAfter (h1 : 1 ≤ limit) (l : Link) :
    ∃ k ≤ limit, ∃ d, (measureRun c limit l).1 = linkAfter c k d l := by
  obtain ⟨k, hk, d, hd⟩ := runLoop_linkAfter (c := c) (limit - 1) { l with dec := { l.dec with count := 1 } }
  exact ⟨k, by omega, d, hd.trans linkAfter_withDec⟩

end OneRun

/-- Settles O14: one run within the limit, and one beyond it. -/
theorem linkRunMeasuresOneRun : Obligations.LinkRunMeasuresOneRun := by
  intro s lim limit hok hlimit
  obtain ⟨h1, h5⟩ := limitOf_bounds (instanceOk_literals hok) lim
  have hlim : limitOf s.par.lit lim = limit := by rw [hlimit]; cases lim <;> rfl
  rw [hlim] at h1 h5
  have hexec : exec (.linkRun lim) s = .next { s with
      link := (measureRun s.par.lit limit s.link).1, ret := .run (measureRun s.par.lit limit s.link).2 } := by
    rw [← hlim]; rfl
  refine ⟨fun n hn hle h => ?_, fun h => ?_⟩
  · rw [hexec, measureRun_of_shows hn hle (by omega) h]; rfl
  · rw [hexec, measureRun_of_shows_tooLong h1 h]; rfl

end Sys2Proof.Proofs
end

section
/-! PROOFS. LINK.SYNC (spec/41_link_decoder.md R146, R147) on a line that shows it runs: run by run, then the whole
search. -/

namespace Sys2Proof.Proofs

open Machine

/-! ### Runs on the line -/

section Runs

variable {c : Literals} {m n limit : Nat} {l : Link} {d : Decoder} {q : Bool} {rs rs' : List Nat}

/-- The line shows these runs, the first half-cycle of the first of them already sampled (R141, R143). -/
def ShowsRuns (c : Literals) (l : Link) (rs : List Nat) : Prop :=
  l.shows c (levelsOf (!l.dec.level) rs).tail

theorem xor_decide_odd_succ (b : Bool) (n : Nat) :
    (!b ^^ decide (n % 2 = 1)) = (b ^^ decide ((n + 1) % 2 = 1)) := by
  rcases Nat.mod_two_eq_zero_or_one n with h | h <;> simp [Nat.add_mod, h]

theorem not_xor_decide_odd (b : Bool) (n : Nat) : (!(b ^^ decide (n % 2 = 1))) = (b ^^ decide (n % 2 = 0)) := by
  rcases Nat.mod_two_eq_zero_or_one n with h | h <;> simp [h]

/-- The decoder's other registers do not matter to what the line shows. -/
theorem showsRuns_of_level {d' : Decoder} (h : ShowsRuns c (linkAfter c n d l) rs) (hd : d'.level = d.level) :
    ShowsRuns c (linkAfter c n d' l) rs := by
  rw [ShowsRuns, shows_linkAfter] at h ⊢
  rwa [linkAfter_dec, hd]

theorem levelsOf_append (q : Bool) (rs rs' : List Nat) :
    levelsOf q (rs ++ rs') = levelsOf q rs ++ levelsOf (q ^^ decide (rs.length % 2 = 1)) rs' := by
  induction rs generalizing q with
  | nil => simp [levelsOf]
  | cons n rs ih =>
    rw [List.cons_append, levelsOf, ih, levelsOf, List.append_assoc, xor_decide_odd_succ, List.length_cons]

theorem levelsOf_eq_cons (h : 0 < rs.headD 0) : levelsOf q rs = (!q) :: (levelsOf q rs).tail := by
  cases rs with
  | nil => simp at h
  | cons n rs => rw [levelsOf_cons_of_pos (by simpa using h), List.tail_cons]

theorem headD_append_pos (h : ∀ n ∈ rs, 0 < n) (h' : 0 < rs'.headD 0) : 0 < (rs ++ rs').headD 0 := by
  cases rs with
  | nil => exact h'
  | cons n rs => exact h n List.mem_cons_self

theorem showsRuns_cons (hn : 0 < n) :
    ShowsRuns c l (n :: rs) ↔
      l.shows c (List.replicate (n - 1) l.dec.level ++ levelsOf l.dec.level rs) := by
  rw [ShowsRuns, levelsOf_cons_of_pos hn, List.tail_cons, Bool.not_not]

/-- A run that another follows is measured, and the line then shows the others (R143). -/
theorem measureRun_of_showsRuns (h1 : 1 ≤ n) (hn : n ≤ limit) (h8 : n < 8) (hrs : 0 < rs.headD 0)
    (h : ShowsRuns c l (n :: rs)) :
    measureRun c limit l = (linkAfter c n (measured n l.dec) l, .length n) ∧
      ShowsRuns c (linkAfter c n (measured n l.dec) l) rs := by
  rw [showsRuns_cons h1, levelsOf_eq_cons hrs, List.append_cons, shows_append] at h
  obtain ⟨hrun, hrest⟩ := h
  refine ⟨measureRun_of_shows h1 hn h8 hrun, shows_linkAfter.2 ?_⟩
  simpa [measured, Nat.sub_add_cancel h1] using hrest

/-- A run beyond the limit is too long, whatever follows it (R144). -/
theorem measureRun_of_showsRuns_tooLong (h1 : 1 ≤ limit) (hn : limit < n) (h : ShowsRuns c l (n :: rs)) :
    measureRun c limit l = (linkAfter c limit (overrun limit l.dec) l, .tooLong) := by
  rw [showsRuns_cons (by omega), show n - 1 = limit + (n - 1 - limit) by omega, ← List.replicate_append_replicate,
    List.append_assoc, shows_append] at h
  exact measureRun_of_shows_tooLong h1 h.1

end Runs

/-! ### The search -/

section Search

variable {c : Literals} {k n : Nat} {l : Link} {d : Decoder} {runs rs : List Nat}

/-- The decoder once it has counted these runs, none of them a marker (R146). -/
def afterRuns (runs : List Nat) (d : Decoder) : Decoder := runs.foldl (fun d n => afterNonSync n d) d

/-- Each run inverts the level and is counted; nothing else but `count` changes. -/
theorem afterRuns_eq (runs : List Nat) (d : Decoder) :
    afterRuns runs d = { d with
      level := d.level ^^ decide (runs.length % 2 = 1)
      count := (afterRuns runs d).count
      nonSync := d.nonSync + BitVec.ofNat 5 runs.length } := by
  induction runs generalizing d with
  | nil => simp [afterRuns]
  | cons n runs ih =>
    have hcount : d.nonSync + 1 + BitVec.ofNat 5 runs.length = d.nonSync + BitVec.ofNat 5 (runs.length + 1) := by
      bv_omega
    have hstep : afterRuns (n :: runs) d = afterRuns runs (afterNonSync n d) := rfl
    rw [hstep, ih]
    simp only [afterNonSync, measured, xor_decide_odd_succ, hcount, List.length_cons]

/-- How a run that is no marker is judged (R146, R147). -/
theorem judgeSearchRun_nonMarker (hn : n < c.syncLen) :
    judgeSearchRun c (.length n) (linkAfter c k (measured n d) l) =
      (linkAfter c k (afterNonSync n d) l,
        if c.maxSearchRuns < (d.nonSync + 1).toNat then some (.noMessage .syncFailure) else none) := by
  simp only [judgeSearchRun, if_neg hn.ne]
  by_cases h : c.maxSearchRuns < (d.nonSync + 1).toNat
  · rw [if_pos h]; exact if_pos h
  · rw [if_neg h]; exact if_neg h

/-- A run that is no marker, within the runs that are tolerated: the search goes on (R146). -/
theorem syncLoop_of_nonMarker (hc : literalsOk c = true) (hn : 1 ≤ n ∧ n < c.syncLen)
    (hcount : l.dec.nonSync.toNat < c.maxSearchRuns) (hrs : 0 < rs.headD 0) (h : ShowsRuns c l (n :: rs)) :
    syncLoop c (k + 1) l = syncLoop c k (linkAfter c n (afterNonSync n l.dec) l) ∧
      ShowsRuns c (linkAfter c n (afterNonSync n l.dec) l) rs := by
  have hf := literalsOk_facts hc
  obtain ⟨hrun, hrest⟩ := measureRun_of_showsRuns (limit := c.syncLen) hn.1 hn.2.le (by omega) hrs h
  have hnext : ¬c.maxSearchRuns < (l.dec.nonSync + 1).toNat := by bv_omega
  refine ⟨?_, showsRuns_of_level hrest rfl⟩
  rw [syncLoop, hrun]
  simp only [judgeSearchRun_nonMarker hn.2, if_neg hnext]

/-- The run that is one too many (R147). -/
theorem syncLoop_of_lastRun (hc : literalsOk c = true) (hn : 1 ≤ n ∧ n < c.syncLen)
    (hcount : l.dec.nonSync.toNat = c.maxSearchRuns) (hrs : 0 < rs.headD 0) (h : ShowsRuns c l (n :: rs)) :
    syncLoop c (k + 1) l = (linkAfter c n (afterNonSync n l.dec) l, .noMessage .syncFailure) := by
  have hf := literalsOk_facts hc
  have hrun := (measureRun_of_showsRuns (limit := c.syncLen) hn.1 hn.2.le (by omega) hrs h).1
  have hnext : c.maxSearchRuns < (l.dec.nonSync + 1).toNat := by bv_omega
  rw [syncLoop, hrun]
  simp only [judgeSearchRun_nonMarker hn.2, if_pos hnext]

theorem syncLoop_of_marker (hc : literalsOk c = true) (hrs : 0 < rs.headD 0) (h : ShowsRuns c l (c.syncLen :: rs)) :
    syncLoop c (k + 1) l = (linkAfter c c.syncLen (measured c.syncLen l.dec) l, .synced) ∧
      ShowsRuns c (linkAfter c c.syncLen (measured c.syncLen l.dec) l) rs := by
  have hf := literalsOk_facts hc
  obtain ⟨hrun, hrest⟩ := measureRun_of_showsRuns (limit := c.syncLen) (by omega) le_rfl (by omega) hrs h
  refine ⟨?_, hrest⟩
  rw [syncLoop, hrun]
  simp only [judgeSearchRun, if_true]

theorem syncLoop_of_longRun (hc : literalsOk c = true) (hn : c.syncLen < n) (h : ShowsRuns c l (n :: rs)) :
    syncLoop c (k + 1) l = (linkAfter c c.syncLen (overrun c.syncLen l.dec) l, .noMessage .searchRunTooLong) := by
  have hf := literalsOk_facts hc
  rw [syncLoop, measureRun_of_showsRuns_tooLong (by omega) hn h]
  rfl

/-- Runs that are no marker, as many as are tolerated at most: the search goes on with what follows them (R146). -/
theorem syncLoop_of_runs (hc : literalsOk c = true) (hruns : ∀ n ∈ runs, 1 ≤ n ∧ n < c.syncLen)
    (hcount : l.dec.nonSync.toNat + runs.length ≤ c.maxSearchRuns) (hrs : 0 < rs.headD 0)
    (h : ShowsRuns c l (runs ++ rs)) :
    syncLoop c (runs.length + k) l = syncLoop c k (linkAfter c runs.sum (afterRuns runs l.dec) l) ∧
      ShowsRuns c (linkAfter c runs.sum (afterRuns runs l.dec) l) rs := by
  induction runs generalizing l with
  | nil => exact ⟨by rw [List.length_nil, Nat.zero_add]; rfl, h⟩
  | cons n runs ih =>
    have hf := literalsOk_facts hc
    obtain ⟨hn, hruns⟩ := List.forall_mem_cons.1 hruns
    rw [List.length_cons] at hcount
    obtain ⟨hstep, hnext⟩ := syncLoop_of_nonMarker (k := runs.length + k) hc hn (by omega)
      (headD_append_pos (fun x hx => (hruns x hx).1) hrs) h
    have hone : (l.dec.nonSync + 1).toNat = l.dec.nonSync.toNat + 1 := by bv_omega
    obtain ⟨hloop, hrest⟩ := ih hruns (by simp only [linkAfter_dec, afterNonSync, hone]; omega) hnext
    simp only [linkAfter_linkAfter, linkAfter_dec] at hloop hrest
    rw [List.length_cons, Nat.succ_add, List.sum_cons]
    exact ⟨hstep.trans hloop, hrest⟩

/-- The decoder at the start of a search (R146). -/
def searching (d : Decoder) : Decoder := { d with nonSync := 0 }

theorem afterRuns_searching (runs : List Nat) (d : Decoder) :
    afterRuns runs (searching d) = { d with
      level := d.level ^^ decide (runs.length % 2 = 1)
      count := (afterRuns runs (searching d)).count
      nonSync := BitVec.ofNat 5 runs.length } := by
  rw [afterRuns_eq]
  simp [searching]

/-- Runs tolerated by the search, then what ends it. -/
theorem searchMarker_of_runs (hc : literalsOk c = true) (hruns : ∀ n ∈ runs, 1 ≤ n ∧ n < c.syncLen)
    (hlen : runs.length ≤ c.maxSearchRuns) (hrs : 0 < rs.headD 0) (h : ShowsRuns c l (runs ++ rs)) :
    searchMarker c l = syncLoop c (c.maxSearchRuns - runs.length + 1)
        (linkAfter c runs.sum (afterRuns runs (searching l.dec)) l) ∧
      ShowsRuns c (linkAfter c runs.sum (afterRuns runs (searching l.dec)) l) rs := by
  have hrun := syncLoop_of_runs (k := c.maxSearchRuns - runs.length + 1) (l := { l with dec := searching l.dec })
    hc hruns (by simpa [searching] using hlen) hrs (shows_withDec.2 h)
  rw [linkAfter_withDec] at hrun
  refine ⟨Eq.trans ?_ hrun.1, hrun.2⟩
  rw [searchMarker, show runs.length + (c.maxSearchRuns - runs.length + 1) = c.maxSearchRuns + 1 by omega]
  rfl

/-- R146: the marker after at most the tolerated runs. -/
theorem searchMarker_synced (hc : literalsOk c = true) (hruns : ∀ n ∈ runs, 1 ≤ n ∧ n < c.syncLen)
    (hlen : runs.length ≤ c.maxSearchRuns) (hrs : 0 < rs.headD 0) (h : ShowsRuns c l (runs ++ c.syncLen :: rs)) :
    searchMarker c l =
        (linkAfter c (runs.sum + c.syncLen) (measured c.syncLen (afterRuns runs (searching l.dec))) l, .synced) ∧
      ShowsRuns c (linkAfter c (runs.sum + c.syncLen) (measured c.syncLen (afterRuns runs (searching l.dec))) l)
        rs := by
  have hf := literalsOk_facts hc
  obtain ⟨hsearch, hmarker⟩ := searchMarker_of_runs hc hruns hlen (rs := c.syncLen :: rs)
    (by rw [List.headD_cons]; omega) h
  obtain ⟨hend, hrest⟩ := syncLoop_of_marker (k := c.maxSearchRuns - runs.length) hc hrs hmarker
  simp only [linkAfter_linkAfter, linkAfter_dec] at hend hrest
  exact ⟨hsearch.trans hend, hrest⟩

/-- R144, R146: a run beyond the marker's length after at most the tolerated runs. -/
theorem searchMarker_tooLong (hc : literalsOk c = true) (hruns : ∀ n ∈ runs, 1 ≤ n ∧ n < c.syncLen)
    (hlen : runs.length ≤ c.maxSearchRuns) (hn : c.syncLen < n) (h : ShowsRuns c l (runs ++ n :: rs)) :
    searchMarker c l =
      (linkAfter c (runs.sum + c.syncLen) (overrun c.syncLen (afterRuns runs (searching l.dec))) l,
        .noMessage .searchRunTooLong) := by
  obtain ⟨hsearch, hlong⟩ := searchMarker_of_runs hc hruns hlen (rs := n :: rs) (by rw [List.headD_cons]; omega) h
  rw [hsearch, syncLoop_of_longRun hc hn hlong, linkAfter_linkAfter, linkAfter_dec]

/-- R147: one run more than are tolerated. -/
theorem searchMarker_failure (hc : literalsOk c = true) (hruns : ∀ n ∈ runs, 1 ≤ n ∧ n < c.syncLen)
    (hlen : runs.length = c.maxSearchRuns + 1) (hrs : 0 < rs.headD 0) (h : ShowsRuns c l (runs ++ rs)) :
    searchMarker c l = (linkAfter c runs.sum (afterRuns runs (searching l.dec)) l, .noMessage .syncFailure) := by
  have hf := literalsOk_facts hc
  rcases runs.eq_nil_or_concat' with rfl | ⟨init, n, rfl⟩
  · simp at hlen
  have hinit : init.length = c.maxSearchRuns := by simpa using hlen
  have hn := hruns n (by simp)
  rw [List.append_assoc, List.singleton_append] at h
  obtain ⟨hsearch, hlast⟩ := searchMarker_of_runs hc (fun x hx => hruns x (by simp [hx])) hinit.le (rs := n :: rs)
    (by rw [List.headD_cons]; omega) h
  have hcount : (afterRuns init (searching l.dec)).nonSync.toNat = c.maxSearchRuns := by
    rw [afterRuns_searching, hinit]
    exact Nat.mod_eq_of_lt (by omega)
  rw [hsearch, syncLoop_of_lastRun hc hn hcount hrs hlast, linkAfter_linkAfter, linkAfter_dec]
  simp [afterRuns]

end Search

theorem exec_linkSync (s : State) :
    exec .linkSync s = .next { s with
      link := (searchMarker s.par.lit s.link).1, ret := .sync (searchMarker s.par.lit s.link).2 } := rfl

/-- A run of length 1 or 2 is no marker under the given literals. -/
theorem nonMarker_of_given {c : Literals} (hc : c = Literals.given) {runs : List Nat} (h : ∀ n ∈ runs, n = 1 ∨ n = 2) :
    ∀ n ∈ runs, 1 ≤ n ∧ n < c.syncLen := by
  intro n hn
  have hsync : c.syncLen = 3 := by rw [hc]; rfl
  have := h n hn
  omega

/-- Settles O15: the tolerated runs by induction, then the run that ends the search. -/
theorem linkSyncSearchesTheMarker : Obligations.LinkSyncSearchesTheMarker := by
  intro s runs hlit hruns before
  have hc : literalsOk s.par.lit = true := hlit ▸ literalsOk_given
  have hsync : s.par.lit.syncLen = 3 := by rw [hlit]; rfl
  have hmax : s.par.lit.maxSearchRuns = 20 := by rw [hlit]; rfl
  have hnon := nonMarker_of_given hlit hruns
  refine ⟨fun hlen h => ?_, fun hlen h => ?_, fun hlen h => ?_⟩
  · obtain ⟨hend, -⟩ := searchMarker_synced hc hnon (by omega) (rs := [1]) (by simp) (by rw [hsync]; exact h)
    rw [exec_linkSync, hend, hsync, afterRuns_searching]
    simp only [measured, not_xor_decide_odd]
    rfl
  · have hend := searchMarker_failure hc hnon (by omega) (rs := [1]) (by simp) h
    have hdec : afterRuns runs (searching s.link.dec) = { s.link.dec with
        level := before, count := (afterRuns runs (searching s.link.dec)).count, nonSync := 21 } := by
      rw [afterRuns_searching, hlen]
      simp [before]
    refine ⟨_, (exec_linkSync s).trans (by rw [hend]), congrArg Decoder.nonSync hdec, ?_⟩
    exact congrArg (fun d => { s with
      link := linkAfter s.par.lit runs.sum d s.link, ret := .sync (.noMessage .syncFailure) }) hdec
  · have hend := searchMarker_tooLong (n := 4) (rs := []) hc hnon (by omega) (by omega) h
    refine ⟨_, (exec_linkSync s).trans (by rw [hend]), ?_⟩
    rw [hsync, afterRuns_searching]
    rfl

end Sys2Proof.Proofs
end

section
/-! PROOFS. LINK.PAYLOAD (spec/41_link_decoder.md R148) on a line that shows it data runs. -/

namespace Sys2Proof.Proofs

open Machine

section Payload

variable {c : Literals} {j k n : Nat} {l : Link} {d : Decoder} {b : Bool} {bits : List Bool} {rs : List Nat}
  {v : Sample}

/-! ### Run by run -/

theorem takeBit_linkAfter (hc : literalsOk c = true) (b : Bool) (k : Nat) (d : Decoder) (l : Link) :
    takeBit c (bitRun c b) (linkAfter c k (measured (bitRun c b) d) l) = linkAfter c k (afterBit c b d) l := by
  simp only [takeBit, bitRun_eq_bit1Len_iff hc]
  rfl

/-- R148: a bit's run is taken, and the payload goes on with what follows it. -/
theorem payloadLoop_of_bit (hc : literalsOk c = true) (hrs : 0 < rs.headD 0) (h : ShowsRuns c l (bitRun c b :: rs)) :
    payloadLoop c (k + 1) l = payloadLoop c k (linkAfter c (bitRun c b) (afterBit c b l.dec) l) ∧
      ShowsRuns c (linkAfter c (bitRun c b) (afterBit c b l.dec) l) rs := by
  have hf := literalsOk_facts hc
  have hb := bitRun_bounds hc b
  obtain ⟨hrun, hrest⟩ := measureRun_of_showsRuns hb.1 hb.2 (by omega) hrs h
  refine ⟨?_, showsRuns_of_level hrest rfl⟩
  rw [payloadLoop, hrun]
  simp only [takeBit_linkAfter hc]

/-- R144, R148: a run beyond a bit's length. -/
theorem payloadLoop_of_longRun (hc : literalsOk c = true) (hn : c.bit1Len < n) (h : ShowsRuns c l (n :: rs)) :
    payloadLoop c (k + 1) l = (linkAfter c c.bit1Len (overrun c.bit1Len l.dec) l, .noMessage .payloadRunTooLong) := by
  have hf := literalsOk_facts hc
  rw [payloadLoop, measureRun_of_showsRuns_tooLong (by omega) hn h]

/-- The decoder once it has read these bits, each in a run of its own (R148). -/
def afterBits (c : Literals) (bits : List Bool) (d : Decoder) : Decoder := bits.foldl (fun d b => afterBit c b d) d

/-- Data runs are taken one by one, and the payload goes on with what follows them (R148). -/
theorem payloadLoop_of_bits (hc : literalsOk c = true) (hrs : 0 < rs.headD 0)
    (h : ShowsRuns c l (bits.map (bitRun c) ++ rs)) :
    payloadLoop c (bits.length + k) l =
        payloadLoop c k (linkAfter c (bits.map (bitRun c)).sum (afterBits c bits l.dec) l) ∧
      ShowsRuns c (linkAfter c (bits.map (bitRun c)).sum (afterBits c bits l.dec) l) rs := by
  induction bits generalizing l with
  | nil => exact ⟨by rw [List.length_nil, Nat.zero_add]; rfl, h⟩
  | cons b bits ih =>
    have hpos : ∀ n ∈ bits.map (bitRun c), 0 < n := List.forall_mem_map.2 fun b _ => (bitRun_bounds hc b).1
    obtain ⟨hstep, hnext⟩ := payloadLoop_of_bit (k := bits.length + k) hc (headD_append_pos hpos hrs) h
    obtain ⟨hloop, hrest⟩ := ih hnext
    simp only [linkAfter_linkAfter, linkAfter_dec] at hloop hrest
    rw [List.length_cons, Nat.succ_add, List.map_cons, List.sum_cons]
    exact ⟨hstep.trans hloop, hrest⟩

/-! ### The bits of a sample -/

/-- The low `n` bits of a sample, least-significant first (R93, R94). -/
def lowBits (n : Nat) (v : Sample) : List Bool := (List.range n).map v.getLsbD

@[simp] theorem length_lowBits : (lowBits n v).length = n := by simp [lowBits]

theorem take_lowBits (h : j ≤ n) : (lowBits n v).take j = lowBits j v := by
  rw [lowBits, ← List.map_take, List.take_range, Nat.min_eq_left h, lowBits]

theorem runsOf_eq_lowBits (c : Literals) (v : Sample) :
    runsOf c v = c.syncLen :: (lowBits c.payloadBits v).map (bitRun c) := by
  rw [runsOf_eq, lowBits, List.map_map]
  rfl

theorem afterBits_lowBits_succ (n : Nat) (v : Sample) (d : Decoder) :
    afterBits c (lowBits (n + 1) v) d = afterBit c (v.getLsbD n) (afterBits c (lowBits n v) d) := by
  simp [afterBits, lowBits, List.range_succ]

/-- The decoder at the start of a payload (R148). -/
def cleared (d : Decoder) : Decoder := { d with value := 0, bitIndex := 0 }

/-- The decoder holds the low `n` bits of `v` after as many runs (R148). -/
theorem afterBits_lowBits (hn : n ≤ 10) :
    (afterBits c (lowBits n v) (cleared d)).bitIndex.toNat = n ∧
      ∀ j < 10, (afterBits c (lowBits n v) (cleared d)).value.getLsbD j = (decide (j < n) && v.getLsbD j) := by
  induction n with
  | zero => exact ⟨rfl, fun j _ => by simp [afterBits, lowBits, cleared]⟩
  | succ n ih =>
    obtain ⟨hindex, hvalue⟩ := ih (by omega)
    rw [afterBits_lowBits_succ]
    refine ⟨?_, fun j hj => ?_⟩
    · have hone : ((afterBits c (lowBits n v) (cleared d)).bitIndex + 1).toNat = n + 1 := by bv_omega
      exact hone
    · have hbit := getLsbD_valueWithBit (v.getLsbD n) (afterBits c (lowBits n v) (cleared d)) hj
      rw [hindex, hvalue j hj] at hbit
      exact hbit.trans (by grind)

theorem afterBits_value : (afterBits c (lowBits 10 v) (cleared d)).value = v :=
  BitVec.eq_of_getLsbD_eq fun j hj => by simpa [hj] using (afterBits_lowBits le_rfl).2 j hj

/-- Each bit's run inverts the level; `dphase` and `nonSync` stay. -/
theorem afterBits_eq (bits : List Bool) (d : Decoder) :
    afterBits c bits d = { d with
      level := d.level ^^ decide (bits.length % 2 = 1)
      count := (afterBits c bits d).count
      bitIndex := (afterBits c bits d).bitIndex
      value := (afterBits c bits d).value } := by
  induction bits generalizing d with
  | nil => simp [afterBits]
  | cons b bits ih =>
    have hstep : afterBits c (b :: bits) d = afterBits c bits (afterBit c b d) := rfl
    rw [hstep, ih]
    simp only [afterBit, measured, xor_decide_odd_succ, List.length_cons]

/-! ### The whole payload -/

/-- R148: the data runs of `v` give `v`. -/
theorem readPayload_value (hc : literalsOk c = true) (h10 : c.payloadBits = 10) (hrs : 0 < rs.headD 0)
    (h : ShowsRuns c l ((lowBits 10 v).map (bitRun c) ++ rs)) :
    readPayload c l =
      (linkAfter c ((lowBits 10 v).map (bitRun c)).sum (afterBits c (lowBits 10 v) (cleared l.dec)) l, .value v) := by
  have hrun := (payloadLoop_of_bits (k := 0) (l := { l with dec := cleared l.dec }) hc hrs (shows_withDec.2 h)).1
  rw [linkAfter_withDec, length_lowBits, Nat.add_zero] at hrun
  rw [readPayload, h10]
  refine hrun.trans ?_
  simp only [payloadLoop, linkAfter_dec, afterBits_value]

/-- R148: a run beyond a bit's length among the data runs. -/
theorem readPayload_tooLong (hc : literalsOk c = true) (h10 : c.payloadBits = 10) (hj : j < 10) (hn : c.bit1Len < n)
    (h : ShowsRuns c l ((lowBits j v).map (bitRun c) ++ n :: rs)) :
    readPayload c l =
      (linkAfter c (((lowBits j v).map (bitRun c)).sum + c.bit1Len)
          (overrun c.bit1Len (afterBits c (lowBits j v) (cleared l.dec))) l,
        .noMessage .payloadRunTooLong) := by
  have hf := literalsOk_facts hc
  obtain ⟨hrun, hlong⟩ := payloadLoop_of_bits (k := 9 - j + 1) (l := { l with dec := cleared l.dec }) hc
    (rs := n :: rs) (by rw [List.headD_cons]; omega) (shows_withDec.2 h)
  rw [linkAfter_withDec] at hrun hlong
  rw [length_lowBits, show j + (9 - j + 1) = 10 by omega, payloadLoop_of_longRun hc hn hlong,
    linkAfter_linkAfter] at hrun
  rw [readPayload, h10]
  exact hrun

end Payload

theorem exec_linkPayload (s : State) :
    exec .linkPayload s = .next { s with
      link := (readPayload s.par.lit s.link).1, ret := .decode (readPayload s.par.lit s.link).2 } := rfl

/-- R93: with the given lengths the data runs take `10 + popcount(V)` half-cycles. -/
theorem sum_dataRuns_given (v : Sample) : ((lowBits 10 v).map (bitRun Literals.given)).sum = 10 + popcount v := by
  have hsum := sum_runsOf_given v
  rw [runsOf_eq_lowBits, List.sum_cons, show Literals.given.syncLen = 3 from rfl,
    show Literals.given.payloadBits = 10 from rfl] at hsum
  omega

/-- Settles O16: the data runs by induction, with the bits read so far. -/
theorem linkPayloadReadsTenRuns : Obligations.LinkPayloadReadsTenRuns := by
  intro s v hlit before
  have hc : literalsOk s.par.lit = true := hlit ▸ literalsOk_given
  have h10 : s.par.lit.payloadBits = 10 := by rw [hlit]; rfl
  have hbit1 : s.par.lit.bit1Len = 2 := by rw [hlit]; rfl
  rw [runsOf_eq_lowBits, List.tail_cons, h10]
  refine ⟨fun h => ?_, fun j hj h => ?_⟩
  · have hend := readPayload_value hc h10 (rs := [1]) (by simp) h
    have hsum : ((lowBits 10 v).map (bitRun s.par.lit)).sum = 10 + popcount v := by
      rw [hlit]; exact sum_dataRuns_given v
    have hindex : (afterBits s.par.lit (lowBits 10 v) (cleared s.link.dec)).bitIndex = 10 :=
      BitVec.eq_of_toNat_eq (afterBits_lowBits le_rfl).1
    have hdec : afterBits s.par.lit (lowBits 10 v) (cleared s.link.dec) = { s.link.dec with
        count := (afterBits s.par.lit (lowBits 10 v) (cleared s.link.dec)).count, bitIndex := 10, value := v } := by
      rw [afterBits_eq, afterBits_value, hindex, length_lowBits]
      simp [cleared]
    refine ⟨_, (exec_linkPayload s).trans (by rw [hend, hsum]), ?_⟩
    exact congrArg (fun d => { s with
      link := linkAfter s.par.lit (10 + popcount v) d s.link, ret := .decode (.value v) }) hdec
  · rw [← List.map_take, take_lowBits hj.le] at h ⊢
    have hend := readPayload_tooLong (n := 3) (rs := []) hc h10 hj (by omega) h
    exact ⟨_, (exec_linkPayload s).trans (by rw [hend, hbit1]), (afterBits_lowBits hj.le).1, rfl⟩

end Sys2Proof.Proofs
end

section
/-! PROOFS. LINK.DECODE (spec/41_link_decoder.md R140, R141, R153 to R156): the whole call on a line that shows it
runs, and its bound on every line. -/

namespace Sys2Proof.Proofs

open Machine

/-! ### The call's result from the runs shown -/

section Call

variable {c : Literals} {j m n : Nat} {l l' : Link} {d : Decoder} {q : Bool} {runs rs : List Nat} {v : Sample}
  {cause : Cause} {r : DecodeResult}

/-- The decoder once it has sampled the reference level `b` (R141). -/
def referenced (b : Bool) (d : Decoder) : Decoder := { d with dphase := .search, level := b }

theorem referenceSample_eq (l : Link) :
    referenceSample c l = linkAfter c 1 (referenced (linkHalfCycle c l).2 l.dec) l := by
  have hdec := (linkHalfCycle_moved (c := c) l).2
  have hstep : linkHalfCycle c (setDPhase .search l) =
      ({ (linkHalfCycle c l).1 with dec := { l.dec with dphase := .search } }, (linkHalfCycle c l).2) :=
    linkHalfCycle_withDec
  simp only [referenceSample, hstep]
  rfl

/-- R141: the reference sample is the first half-cycle of the first run. -/
theorem referenceSample_of_shows (hrs : 0 < rs.headD 0) (h : l.shows c (levelsOf q rs)) :
    referenceSample c l = linkAfter c 1 (referenced (!q) l.dec) l ∧
      ShowsRuns c (linkAfter c 1 (referenced (!q) l.dec) l) rs := by
  rw [levelsOf_eq_cons hrs, shows_cons] at h
  obtain ⟨hlevel, hrest⟩ := h
  refine ⟨by rw [referenceSample_eq, hlevel], shows_linkAfter.2 ?_⟩
  rw [linkAfter_dec, referenced, Bool.not_not]
  exact hrest

theorem judgedCall_of_noMessage (h : searchMarker c (referenceSample c l) = (l', .noMessage cause)) :
    judgedCall c l = (endCall (.noMessage cause) l', .noMessage cause) := by
  simp only [judgedCall, h]
  rfl

theorem judgedCall_of_synced (h : searchMarker c (referenceSample c l) = (l', .synced)) :
    judgedCall c l = decodePayload c l' := by
  simp only [judgedCall, h]

/-- The payload of a call: the result is that of LINK.PAYLOAD (R140, R151). -/
theorem decodePayload_of_read (h : readPayload c (linkAfter c n { d with dphase := .payload } l) = (l', r)) :
    decodePayload c (linkAfter c n d l) = (endCall r l', r) := by
  have hread : readPayload c (setDPhase .payload (waitSettle (setDPhase .settle (linkAfter c n d l)))) = (l', r) := h
  simp only [decodePayload, hread]

/-- The call up to the marker: the line shows the payload, whose result is the call's (R140, R146). -/
theorem judgedCall_of_marker (hc : literalsOk c = true) (hruns : ∀ n ∈ runs, 1 ≤ n ∧ n < c.syncLen)
    (hlen : runs.length ≤ c.maxSearchRuns) (hrs : 0 < rs.headD 0)
    (h : l.shows c (levelsOf q (runs ++ c.syncLen :: rs))) :
    ∃ d, d.nonSync = BitVec.ofNat 5 runs.length ∧
      (∀ r l', readPayload c (linkAfter c (1 + (runs.sum + c.syncLen)) d l) = (l', r) →
        judgedCall c l = (endCall r l', r)) ∧
      ShowsRuns c (linkAfter c (1 + (runs.sum + c.syncLen)) d l) rs := by
  have hf := literalsOk_facts hc
  obtain ⟨href, hshow⟩ := referenceSample_of_shows
    (headD_append_pos (fun n hn => (hruns n hn).1) (by rw [List.headD_cons]; omega)) h
  obtain ⟨hsearch, hrest⟩ := searchMarker_synced hc hruns hlen hrs hshow
  rw [linkAfter_linkAfter] at hsearch hrest
  refine ⟨{ measured c.syncLen (afterRuns runs (searching (referenced (!q) l.dec))) with dphase := .payload },
    congrArg Decoder.nonSync (afterRuns_searching _ _), fun r l' hread => ?_, showsRuns_of_level hrest rfl⟩
  exact (judgedCall_of_synced (href ▸ hsearch)).trans (decodePayload_of_read hread)

/-- R140, R148: a whole frame after at most the tolerated runs; the call samples up to the next marker's first
half-cycle. -/
theorem judgedCall_value (hc : literalsOk c = true) (h10 : c.payloadBits = 10)
    (hruns : ∀ n ∈ runs, 1 ≤ n ∧ n < c.syncLen) (hlen : runs.length ≤ c.maxSearchRuns)
    (h : l.shows c (levelsOf q (runs ++ runsOf c v ++ [1]))) :
    ∃ d, d.nonSync = BitVec.ofNat 5 runs.length ∧
      judgedCall c l =
        (endCall (.value v) (linkAfter c (levelsOf q (runs ++ runsOf c v ++ [1])).length d l), .value v) := by
  have hpos : ∀ n ∈ (lowBits 10 v).map (bitRun c), 0 < n := List.forall_mem_map.2 fun b _ => (bitRun_bounds hc b).1
  have hcost : (levelsOf q (runs ++ runsOf c v ++ [1])).length =
      1 + (runs.sum + c.syncLen) + ((lowBits 10 v).map (bitRun c)).sum := by
    rw [length_levelsOf, runsOf_eq_lowBits, h10]
    simp only [List.sum_append, List.sum_cons, List.sum_nil]
    omega
  rw [hcost]
  rw [runsOf_eq_lowBits, h10, List.append_assoc, List.cons_append] at h
  obtain ⟨d, hd, hcall, hrest⟩ := judgedCall_of_marker hc hruns hlen (headD_append_pos hpos (by simp)) h
  have hread := readPayload_value hc h10 (by simp) hrest
  rw [linkAfter_linkAfter] at hread
  refine ⟨_, ?_, hcall _ _ hread⟩
  rw [afterBits_eq]
  exact hd

/-- R153: a run beyond a bit's length after the marker and `j` data runs. -/
theorem judgedCall_payloadRunTooLong (hc : literalsOk c = true) (h10 : c.payloadBits = 10)
    (hruns : ∀ n ∈ runs, 1 ≤ n ∧ n < c.syncLen) (hlen : runs.length ≤ c.maxSearchRuns) (hj : j < 10)
    (h : l.shows c (levelsOf q (runs ++ (runsOf c v).take (j + 1) ++ [c.bit1Len + 1]))) :
    ∃ d, judgedCall c l =
      (endCall (.noMessage .payloadRunTooLong)
          (linkAfter c (levelsOf q (runs ++ (runsOf c v).take (j + 1) ++ [c.bit1Len + 1])).length d l),
        .noMessage .payloadRunTooLong) := by
  have hpos : ∀ n ∈ (lowBits j v).map (bitRun c), 0 < n := List.forall_mem_map.2 fun b _ => (bitRun_bounds hc b).1
  have htake : (runsOf c v).take (j + 1) = c.syncLen :: (lowBits j v).map (bitRun c) := by
    rw [runsOf_eq_lowBits, h10, List.take_succ_cons, ← List.map_take, take_lowBits hj.le]
  have hcost : (levelsOf q (runs ++ (runsOf c v).take (j + 1) ++ [c.bit1Len + 1])).length =
      1 + (runs.sum + c.syncLen) + (((lowBits j v).map (bitRun c)).sum + c.bit1Len) := by
    rw [length_levelsOf, htake]
    simp only [List.sum_append, List.sum_cons, List.sum_nil]
    omega
  rw [hcost]
  rw [htake, List.append_assoc, List.cons_append] at h
  obtain ⟨d, -, hcall, hrest⟩ := judgedCall_of_marker hc hruns hlen (headD_append_pos hpos (by simp)) h
  have hread := readPayload_tooLong hc h10 hj (Nat.lt_succ_self _) hrest
  rw [linkAfter_linkAfter] at hread
  exact ⟨_, hcall _ _ hread⟩

/-- R153: a run beyond the marker's length after at most the tolerated runs. -/
theorem judgedCall_searchRunTooLong (hc : literalsOk c = true) (hruns : ∀ n ∈ runs, 1 ≤ n ∧ n < c.syncLen)
    (hlen : runs.length ≤ c.maxSearchRuns) (h : l.shows c (levelsOf q (runs ++ [c.syncLen + 1]))) :
    ∃ d, judgedCall c l =
      (endCall (.noMessage .searchRunTooLong) (linkAfter c (levelsOf q (runs ++ [c.syncLen + 1])).length d l),
        .noMessage .searchRunTooLong) := by
  have hcost : (levelsOf q (runs ++ [c.syncLen + 1])).length = 1 + (runs.sum + c.syncLen) := by
    rw [length_levelsOf, List.sum_append, List.sum_singleton]
    omega
  obtain ⟨href, hshow⟩ := referenceSample_of_shows (headD_append_pos (fun n hn => (hruns n hn).1) (by simp)) h
  have hsearch := searchMarker_tooLong hc hruns hlen (Nat.lt_succ_self _) hshow
  rw [linkAfter_linkAfter] at hsearch
  rw [hcost]
  exact ⟨_, judgedCall_of_noMessage (by rw [href, hsearch])⟩

/-- R147, R153: one run more than are tolerated. -/
theorem judgedCall_syncFailure (hc : literalsOk c = true) (hruns : ∀ n ∈ runs, 1 ≤ n ∧ n < c.syncLen)
    (hlen : runs.length = c.maxSearchRuns + 1) (h : l.shows c (levelsOf q (runs ++ [1]))) :
    ∃ d, judgedCall c l =
      (endCall (.noMessage .syncFailure) (linkAfter c (levelsOf q (runs ++ [1])).length d l),
        .noMessage .syncFailure) := by
  have hcost : (levelsOf q (runs ++ [1])).length = 1 + runs.sum := by
    rw [length_levelsOf, List.sum_append, List.sum_singleton, Nat.add_comm]
  obtain ⟨href, hshow⟩ := referenceSample_of_shows (headD_append_pos (fun n hn => (hruns n hn).1) (by simp)) h
  have hsearch := searchMarker_failure hc hruns hlen (by simp) hshow
  rw [linkAfter_linkAfter] at hsearch
  rw [hcost]
  exact ⟨_, judgedCall_of_noMessage (by rw [href, hsearch])⟩

/-- A call of `n` link steps whose clock line is sound for as many judges the levels it samples (R128). -/
theorem decodeCall_of_judgedCall (h : judgedCall c l = (endCall r (linkAfter c n d l), r)) (hs : l.clockSound n) :
    decodeCall c l = (endCall r (linkAfter c n d l), r) := by
  rw [decodeCall_eq_judgedCall l n hs ?_, h]
  rw [h, endCall_line, linkAfter_line, List.length_drop]
  omega

end Call

theorem exec_linkDecode (s : State) :
    exec .linkDecode s = .next { s with
      link := (decodeCall s.par.lit s.link).1, ret := .decode (decodeCall s.par.lit s.link).2 } := rfl

/-- The RawSample that a result stands for (R29). -/
def rawOf : DecodeResult → Option Sample
  | .value v => some v
  | .noMessage _ => none

/-- What a call leaves whose clock line is sound: it is over, and `raw` is its result (R140). -/
theorem exec_linkDecode_of_judgedCall {s : State} {n : Nat} {d : Decoder} {r : DecodeResult}
    (h : judgedCall s.par.lit s.link = (endCall r (linkAfter s.par.lit n d s.link), r)) (hs : s.link.clockSound n) :
    ∃ t, exec .linkDecode s = .next t ∧ t.link.dec.dphase = .idle ∧
      t = { s with
        link := { linkSteps s.par.lit n s.link with dec := t.link.dec, raw := rawOf r }
        ret := .decode r } := by
  refine ⟨_, (exec_linkDecode s).trans (by rw [decodeCall_of_judgedCall h hs]), endCall_dphase _ _, ?_⟩
  cases r <;> rfl

/-- Settles O17: the call by what ends it. -/
theorem decodeCallJudgesTheShownRuns : Obligations.DecodeCallJudgesTheShownRuns := by
  intro s before runs v hlit hruns
  have hc : literalsOk s.par.lit = true := hlit ▸ literalsOk_given
  have h10 : s.par.lit.payloadBits = 10 := by rw [hlit]; rfl
  have hsync : 4 = s.par.lit.syncLen + 1 := by rw [hlit]; rfl
  have hbit1 : 3 = s.par.lit.bit1Len + 1 := by rw [hlit]; rfl
  have hmax : s.par.lit.maxSearchRuns = 20 := by rw [hlit]; rfl
  have hnon := nonMarker_of_given hlit hruns
  refine ⟨?_, ?_, ?_, ?_⟩
  · rintro _ rfl hlen h hs
    obtain ⟨d, -, hd⟩ := judgedCall_value hc h10 hnon (by omega) h
    exact exec_linkDecode_of_judgedCall hd hs
  · rintro _ rfl hlen h hs
    rw [hsync] at h hs ⊢
    obtain ⟨d, hd⟩ := judgedCall_searchRunTooLong hc hnon (by omega) h
    exact exec_linkDecode_of_judgedCall hd hs
  · rintro _ rfl hlen h hs
    obtain ⟨d, hd⟩ := judgedCall_syncFailure hc hnon (by omega) h
    exact exec_linkDecode_of_judgedCall hd hs
  · rintro _ j rfl h1 hj hlen h hs
    obtain ⟨j, rfl⟩ := Nat.exists_eq_add_of_le' h1
    rw [hbit1] at h hs ⊢
    obtain ⟨d, hd⟩ := judgedCall_payloadRunTooLong hc h10 hnon (by omega) hj h
    exact exec_linkDecode_of_judgedCall hd hs

/-- Settles O18: a single run of four half-cycles, and 21 runs of one. -/
theorem deadAndAlternatingLines : Obligations.DeadAndAlternatingLines := by
  intro s b hlit
  have hdead : List.replicate 4 b = levelsOf (!b) ([] ++ [4]) := by cases b <;> rfl
  have halternating : (List.range 22).map (fun i => b ^^ decide (i % 2 = 1)) =
      levelsOf (!b) (List.replicate 21 1 ++ [1]) := by cases b <;> rfl
  refine ⟨fun h hs => ?_, fun h hs => ?_⟩
  · obtain ⟨-, htooLong, -⟩ := decodeCallJudgesTheShownRuns s (!b) [] 0 hlit (by simp)
    exact htooLong _ hdead (by simp) h hs
  · obtain ⟨-, -, hfailure, -⟩ := decodeCallJudgesTheShownRuns s (!b) (List.replicate 21 1) 0 hlit (by simp)
    exact hfailure _ halternating rfl h hs

/-! ### The bound on every line -/

section Bound

variable {c : Literals}

theorem judgeSearchRun_dec (m : RunLength) (l : Link) : ∃ d, (judgeSearchRun c m l).1 = { l with dec := d } := by
  simp only [judgeSearchRun]
  split
  · exact ⟨l.dec, rfl⟩
  · split_ifs
    · exact ⟨l.dec, rfl⟩
    · exact ⟨_, rfl⟩
    · exact ⟨_, rfl⟩

/-- The search is link steps, at most `syncLen` a run (R154). -/
theorem syncLoop_linkAfter (hc : literalsOk c = true) (n : Nat) (l : Link) :
    ∃ k ≤ n * c.syncLen, ∃ d, (syncLoop c n l).1 = linkAfter c k d l := by
  induction n generalizing l with
  | zero => exact ⟨0, Nat.zero_le _, l.dec, rfl⟩
  | succ n ih =>
    have hf := literalsOk_facts hc
    obtain ⟨k, hk, d, hrun⟩ := measureRun_linkAfter (c := c) (limit := c.syncLen) (by omega) l
    obtain ⟨d', hjudge⟩ := judgeSearchRun_dec (c := c) (measureRun c c.syncLen l).2 (measureRun c c.syncLen l).1
    rw [syncLoop, Nat.succ_mul]
    rcases hx : judgeSearchRun c (measureRun c c.syncLen l).2 (measureRun c c.syncLen l).1 with ⟨l', _ | r⟩
    · rw [hx, hrun] at hjudge
      obtain ⟨k', hk', d'', hloop⟩ := ih l'
      exact ⟨k + k', by omega, d'', by rw [hloop, show l' = linkAfter c k d' l from hjudge, linkAfter_linkAfter]⟩
    · rw [hx, hrun] at hjudge
      exact ⟨k, by omega, d', hjudge⟩

/-- The payload is link steps, at most `bit1Len` a run (R154). -/
theorem payloadLoop_linkAfter (hc : literalsOk c = true) (n : Nat) (l : Link) :
    ∃ k ≤ n * c.bit1Len, ∃ d, (payloadLoop c n l).1 = linkAfter c k d l := by
  induction n generalizing l with
  | zero => exact ⟨0, Nat.zero_le _, l.dec, rfl⟩
  | succ n ih =>
    have hf := literalsOk_facts hc
    obtain ⟨k, hk, d, hrun⟩ := measureRun_linkAfter (c := c) (limit := c.bit1Len) (by omega) l
    rw [payloadLoop, Nat.succ_mul]
    rcases hx : (measureRun c c.bit1Len l).2 with n' | _
    · obtain ⟨k', hk', d', hloop⟩ := ih (takeBit c n' (measureRun c c.bit1Len l).1)
      have htake : takeBit c n' (linkAfter c k d l) = linkAfter c k (takeBit c n' (linkAfter c k d l)).dec l := rfl
      rw [hrun, htake, linkAfter_linkAfter] at hloop
      exact ⟨k + k', by omega, d', by rw [hrun]; exact hloop⟩
    · exact ⟨k, by omega, d, hrun⟩

/-- A call is one reference step, the search and the payload, then its end (R140, R154). -/
theorem judgedCall_linkAfter (hc : literalsOk c = true) (l : Link) :
    ∃ n ≤ 1 + (c.maxSearchRuns + 1) * c.syncLen + c.payloadBits * c.bit1Len, ∃ d,
      (judgedCall c l).1 = endCall (judgedCall c l).2 (linkAfter c n d l) := by
  obtain ⟨k, hk, d, hsearch⟩ := syncLoop_linkAfter hc (c.maxSearchRuns + 1)
    { referenceSample c l with dec := searching (referenceSample c l).dec }
  have hfirst : (searchMarker c (referenceSample c l)).1 = linkAfter c (1 + k) d l := by
    rw [linkAfter_withDec, referenceSample_eq, linkAfter_linkAfter] at hsearch
    rw [referenceSample_eq]
    exact hsearch
  rcases hx : searchMarker c (referenceSample c l) with ⟨l', _ | cause⟩
  · obtain rfl : l' = linkAfter c (1 + k) d l := by rw [hx] at hfirst; exact hfirst
    obtain ⟨k', hk', d', hpayload⟩ := payloadLoop_linkAfter hc c.payloadBits
      (linkAfter c (1 + k) (cleared { d with dphase := .payload }) l)
    rw [linkAfter_linkAfter] at hpayload
    refine ⟨1 + k + k', by omega, d', ?_⟩
    rw [judgedCall_of_synced hx, ← hpayload]
    rfl
  · obtain rfl : l' = linkAfter c (1 + k) d l := by rw [hx] at hfirst; exact hfirst
    exact ⟨1 + k, by omega, d, by rw [judgedCall_of_noMessage hx]⟩

theorem endCall_frame (r : DecodeResult) (l : Link) :
    endCall r l = { l with dec := (endCall r l).dec, raw := (endCall r l).raw } := by cases r <;> rfl

/-- Whatever the line does, a call writes the decoder, `raw` and the count of free values besides its link steps
(R140, R154). -/
theorem decodeCall_frame (hc : literalsOk c = true) (l : Link) :
    ∃ n ≤ 1 + (c.maxSearchRuns + 1) * c.syncLen + c.payloadBits * c.bit1Len,
      (decodeCall c l).1 = { linkSteps c n l with
        dec := (decodeCall c l).1.dec, raw := (decodeCall c l).1.raw, free := (decodeCall c l).1.free } := by
  obtain ⟨n, hn, d, hcall⟩ := judgedCall_linkAfter hc l
  refine ⟨n, hn, ?_⟩
  simp only [decodeCall, endOpen]
  split
  · rw [hcall, endCall_frame, endCall_frame]; rfl
  · rw [hcall, endCall_frame]; rfl

end Bound

/-- Settles O19: the bound by the names of the literals is 84 under the given ones. -/
theorem decodeCallAlwaysReturns : Obligations.DecodeCallAlwaysReturns := by
  intro s hlit
  have hc : literalsOk s.par.lit = true := hlit ▸ literalsOk_given
  have hbound : 1 + (s.par.lit.maxSearchRuns + 1) * s.par.lit.syncLen +
      s.par.lit.payloadBits * s.par.lit.bit1Len = 84 := by rw [hlit]; rfl
  obtain ⟨hidle, -, hresult⟩ := decodeCall_cases hc s.link
  obtain ⟨n, hn, hframe⟩ := decodeCall_frame hc s.link
  refine ⟨_, n, exec_linkDecode s, hbound ▸ hn, 
    congrArg (fun l => { s with link := l, ret := .decode (decodeCall s.par.lit s.link).2 }) hframe, hidle, ?_⟩
  rcases hresult with ⟨v, hret, hraw⟩ | ⟨cause, hret, hraw⟩
  · exact .inl ⟨v, congrArg Returned.decode hret, hraw⟩
  · exact .inr ⟨cause, congrArg Returned.decode hret, hraw⟩

end Sys2Proof.Proofs
end

section
/-! PROOFS. A decode call on a fault-free line (spec/41_link_decoder.md R149, R157, R158): what the satellite
drives from any position, and what the call makes of it. -/

namespace Sys2Proof.Proofs

open Machine

/-! ### A fault-free line shows what the satellite drives -/

section FaultFree

variable {c : Literals} {n : Nat} {l : Link} {ls : List Bool}

/-- No line input to come disturbs the line (R66, g = 0, one clock event). -/
def FaultFree (l : Link) : Prop := ∀ x ∈ l.line, x = cleanStep

theorem faultFree_of_replicate {m : Nat} (h : l.line = List.replicate m cleanStep) : FaultFree l :=
  fun _ hx => List.eq_of_mem_replicate (h ▸ hx)

theorem FaultFree.linkSteps (h : FaultFree l) (n : Nat) : FaultFree (linkSteps c n l) :=
  fun x hx => h x (List.mem_of_mem_drop (linkSteps_line (c := c) n l ▸ hx))

theorem FaultFree.clockSound (h : FaultFree l) (n : Nat) : l.clockSound n :=
  fun _ hx => congrArg LineInput.clock (h _ (List.mem_of_mem_take hx))

/-- A fault-free link step is one clock event, and samples the level then driven (R66). -/
theorem linkHalfCycle_of_faultFree (h : FaultFree l) :
    (linkHalfCycle c l).1.sat = (satReact c l).sat ∧ (linkHalfCycle c l).1.adc = (satReact c l).adc ∧
      (linkHalfCycle c l).2 = (satReact c l).sat.d := by
  obtain ⟨ls, hstep⟩ : ∃ ls, linkHalfCycle c l = linkStepWith c cleanStep { l with line := ls } := by
    cases hline : l.line with
    | nil => exact ⟨[], by rw [linkHalfCycle_of_nil hline, ← hline]⟩
    | cons x xs => exact ⟨xs, by rw [linkHalfCycle_of_cons hline, h x (hline ▸ List.mem_cons_self)]⟩
  obtain ⟨hs, ha⟩ := satReacts_congr (c := c) (n := 1) (l' := { l with clk := !l.clk, line := ls }) (l := l) rfl rfl
  rw [hstep, linkStepWith_eq]
  exact ⟨hs, ha, congrArg Sat.d hs⟩

/-- Fault-free link steps are as many clock events (R66). -/
theorem linkSteps_of_faultFree (h : FaultFree l) (n : Nat) :
    (linkSteps c n l).sat = (satReacts c n l).sat ∧ (linkSteps c n l).adc = (satReacts c n l).adc := by
  induction n generalizing l with
  | zero => exact ⟨rfl, rfl⟩
  | succ n ih =>
    obtain ⟨hs, ha, -⟩ := linkHalfCycle_of_faultFree (c := c) h
    obtain ⟨hs', ha'⟩ := ih (h.linkSteps (c := c) 1)
    obtain ⟨hs'', ha''⟩ := satReacts_congr (c := c) (n := n) (l' := (linkHalfCycle c l).1) (l := satReact c l) hs ha
    exact ⟨hs'.trans hs'', ha'.trans ha''⟩

theorem lineLevel_of_faultFree (h : FaultFree l) (i : Nat) : lineLevel c l i = (satReacts c (i + 1) l).sat.d := by
  have hlast := (linkHalfCycle_of_faultFree (c := c) (h.linkSteps (c := c) i))
  have hsteps := (linkSteps_of_faultFree (c := c) h (i + 1)).1
  rw [linkSteps_add, linkSteps_one] at hsteps
  rw [lineLevel, hlast.2.2, ← hlast.1, hsteps]

theorem shows_of_faultFree (h : FaultFree l) (hls : ∀ i b, ls[i]? = some b → (satReacts c (i + 1) l).sat.d = b) :
    l.shows c ls := by
  refine List.ext_getElem (by simp) fun i hi hi' => ?_
  rw [List.getElem_map, List.getElem_range, lineLevel_of_faultFree h]
  exact hls i _ (List.getElem?_eq_getElem hi')

end FaultFree

/-! ### The satellite from any position -/

section Driven

variable {c : Literals} {n : Nat} {l l' l'' : Link} {q : Bool} {rs rs' : List Nat}

/-- The level that the satellite drives after the next clock event (R121). -/
def levelAhead (l : Link) : Bool := if l.sat.k = 0 then !l.sat.d else l.sat.d

/-- The satellite at the end of the run it is in or about to start (R121). -/
def runEnd (c : Literals) (l : Link) : Link :=
  { l with
    sat :=
      { r := if l.sat.r.toNat + 1 = c.runsPerMsg then 0 else l.sat.r + 1, k := 0, d := levelAhead l,
        sample := (sampleAhead l).1 }
    adc := (sampleAhead l).2 }

/-- The satellite one half-cycle further in that run (R121). -/
def onward (l : Link) : Link :=
  { l with
    sat := { r := l.sat.r, k := l.sat.k + 1, d := levelAhead l, sample := (sampleAhead l).1 }
    adc := (sampleAhead l).2 }

theorem satReact_eq (l : Link) :
    satReact c l = if l.sat.k.toNat + 1 = runLen c l.sat.r (sampleAhead l).1 then runEnd c l else onward l := rfl

theorem satReact_level (l : Link) : (satReact c l).sat.d = levelAhead l := by
  rw [satReact_eq]; split_ifs <;> rfl

/-- From `l` the satellite drives runs of these lengths, after a run of level `q`, and is then at `l'`. The first run
may have begun before `l`. -/
structure Drives (c : Literals) (q : Bool) (l : Link) (rs : List Nat) (l' : Link) : Prop where
  ends : satReacts c rs.sum l = l'
  level : ∀ i b, (levelsOf q rs)[i]? = some b → (satReacts c (i + 1) l).sat.d = b
  last : l'.sat.d = (q ^^ decide (rs.length % 2 = 1))

theorem Drives.append (h : Drives c q l rs l') (h' : Drives c l'.sat.d l' rs' l'') : Drives c q l (rs ++ rs') l'' where
  ends := by rw [List.sum_append, satReacts_add, h.ends, h'.ends]
  level i b hb := by
    rw [levelsOf_append, List.getElem?_append, length_levelsOf, ← h.last] at hb
    split at hb
    · exact h.level i b hb
    · next hi =>
      obtain ⟨j, rfl⟩ := Nat.exists_eq_add_of_le (Nat.le_of_not_lt hi)
      rw [Nat.add_assoc, satReacts_add, h.ends]
      exact h'.level j b (by rwa [Nat.add_sub_cancel_left] at hb)
  last := by
    rw [h'.last, h.last, List.length_append]
    rcases Nat.mod_two_eq_zero_or_one rs.length with hm | hm <;>
      rcases Nat.mod_two_eq_zero_or_one rs'.length with hn | hn <;> simp [Nat.add_mod, hm, hn]

theorem Emits.last_level (h : Emits c l rs l') : l'.sat.d = (l.sat.d ^^ decide (rs.length % 2 = 1)) := by
  induction h with
  | none l => simp
  | run hk hn h ih => rw [ih, List.length_cons, ← xor_decide_odd_succ]; rfl

theorem Emits.drives (hc : literalsOk c = true) (h : Emits c l rs l') : Drives c l.sat.d l rs l' :=
  ⟨h.satReacts_sum hc, fun _ _ => h.level hc, h.last_level⟩

/-- What is left of the run that the satellite is in or about to start (R121, R122). -/
theorem satReacts_runEnd (hc : literalsOk c = true) (hn : n + 1 + l.sat.k.toNat = runLen c l.sat.r (sampleAhead l).1) :
    satReacts c (n + 1) l = runEnd c l ∧ ∀ i ≤ n, (satReacts c (i + 1) l).sat.d = levelAhead l := by
  induction n generalizing l with
  | zero =>
    refine ⟨(satReact_eq l).trans (if_pos (by omega)), fun i hi => ?_⟩
    obtain rfl : i = 0 := by omega
    exact satReact_level l
  | succ n ih =>
    have hb := (runLen_bounds hc l.sat.r (sampleAhead l).1).2
    have hstep : satReact c l = onward l := (satReact_eq l).trans (if_neg (by omega))
    have hk : (onward l).sat.k.toNat = l.sat.k.toNat + 1 := by simp only [onward]; bv_omega
    have hk0 : (onward l).sat.k ≠ 0 := by bv_omega
    have hahead : sampleAhead (onward l) = sampleAhead l := if_neg fun h => hk0 h.1
    have hlevel : levelAhead (onward l) = levelAhead l := if_neg hk0
    have hend : runEnd c (onward l) = runEnd c l := by
      simp only [runEnd, hahead, hlevel]
      rfl
    obtain ⟨hends, hlevels⟩ := ih (l := onward l) (by rw [hahead, hk]; change _ = runLen c l.sat.r _; omega)
    rw [hend] at hends
    rw [hlevel] at hlevels
    simp only [satReacts, hstep] at hends hlevels ⊢
    refine ⟨hends, fun i hi => ?_⟩
    cases i with
    | zero => rfl
    | succ i => exact hlevels i (by omega)

theorem drives_runEnd (hc : literalsOk c = true) (hn : n + l.sat.k.toNat = runLen c l.sat.r (sampleAhead l).1)
    (h0 : 0 < n) : Drives c (!levelAhead l) l [n] (runEnd c l) := by
  obtain ⟨m, rfl⟩ := Nat.exists_eq_add_of_le' h0
  obtain ⟨hends, hlevels⟩ := satReacts_runEnd hc hn
  refine ⟨hends, fun i b hb => ?_, by simp [runEnd]⟩
  simp only [levelsOf, Bool.not_not, List.append_nil, List.getElem?_replicate] at hb
  split at hb
  · next hi => rw [hlevels i (by omega)]; exact Option.some.inj hb
  · cases hb

end Driven

/-! ### The rest of a message, then the next one -/

section Rest

variable {c : Literals} {l : Link}

/-- The sample of the message under way, or of the one that starts next (R121, R123). -/
def carried (l : Link) : Sample :=
  if l.sat.r = 0 ∨ (l.sat.r = 1 ∧ l.sat.k = 0) then portSample l.adc 0 else l.sat.sample

/-- The ADC's port once it has been drawn. -/
def portAhead (l : Link) : Port Sample :=
  if l.sat.r = 0 ∨ (l.sat.r = 1 ∧ l.sat.k = 0) then (samplePort l.adc).2 else l.adc

/-- The runs that are left of the message under way, the first of them shortened by what has been emitted (R158). -/
def restRuns (c : Literals) (l : Link) : List Nat :=
  (runLen c l.sat.r (carried l) - l.sat.k.toNat) ::
    (List.range' l.sat.r.toNat (c.payloadBits - l.sat.r.toNat)).map fun j => bitRun c ((carried l).getLsbD j)

theorem sampleAhead_of_data (hr : l.sat.r ≠ 0) : sampleAhead l = (carried l, portAhead l) := by
  simp only [sampleAhead, carried, portAhead, hr, false_or, and_comm (a := l.sat.k = 0)]
  split_ifs
  · rw [← samplePort_fst]
  · rfl

theorem runLen_carried (l : Link) : runLen c l.sat.r (carried l) = runLen c l.sat.r (sampleAhead l).1 := by
  by_cases hr : l.sat.r = 0
  · rw [runLen, if_pos hr, runLen, if_pos hr]
  · rw [sampleAhead_of_data hr]

/-- The data runs that are left carry the sample of the message. -/
theorem sampleAhead_runEnd (hc : literalsOk c = true) (hr : l.sat.r.toNat < c.payloadBits) :
    sampleAhead (runEnd c l) = (carried l, portAhead l) := by
  have hf := literalsOk_facts hc
  have hnext : (runEnd c l).sat.r = l.sat.r + 1 := if_neg (by rw [Literals.runsPerMsg]; omega)
  by_cases h0 : l.sat.r = 0
  · have hport : (runEnd c l).adc = l.adc := congrArg Prod.snd (if_neg fun h => by simp [h0] at h)
    rw [sampleAhead, if_pos ⟨rfl, by rw [hnext, h0]; rfl⟩, hport, carried, portAhead, if_pos (.inl h0),
      if_pos (.inl h0), ← samplePort_fst]
  · rw [sampleAhead, if_neg fun h => h0 (by have := hnext.symm.trans h.2; bv_omega)]
    exact sampleAhead_of_data h0

/-- From any position the satellite drives what is left of it (R121, R158). -/
theorem drives_restRuns (hc : literalsOk c = true) (hpos : SatPosition c l) :
    ∃ q l', Drives c q l (restRuns c l) l' ∧ l'.sat.r = 0 ∧ l'.sat.k = 0 ∧ l'.adc = portAhead l := by
  have hf := literalsOk_facts hc
  have hinside := position_inside_run_ahead hc hpos
  rw [← runLen_carried] at hinside
  have hrun : Drives c (!levelAhead l) l [runLen c l.sat.r (carried l) - l.sat.k.toNat] (runEnd c l) :=
    drives_runEnd hc (by rw [← runLen_carried]; omega) (by omega)
  refine ⟨!levelAhead l, ?_⟩
  rcases hpos.1.lt_or_eq with hlt | hlast
  · obtain ⟨m, hm⟩ : ∃ m, c.payloadBits - l.sat.r.toNat = m + 1 := ⟨c.payloadBits - l.sat.r.toNat - 1, by omega⟩
    have hnext : (runEnd c l).sat.r = l.sat.r + 1 := if_neg (by rw [Literals.runsPerMsg]; omega)
    have hdata := emits_dataRuns hc (l := runEnd c l) m l.sat.r.toNat (by omega) rfl (by rw [hnext]; bv_omega)
    rw [sampleAhead_runEnd hc hlt] at hdata
    exact ⟨_, by rw [restRuns, hm]; exact hrun.append (hdata.drives hc), rfl, rfl, rfl⟩
  · have h0 : l.sat.r ≠ 0 := fun h => by bv_omega
    refine ⟨runEnd c l, ?_, if_pos (by rw [hlast]; rfl), rfl, congrArg Prod.snd (sampleAhead_of_data h0)⟩
    rw [restRuns, Nat.sub_eq_zero_of_le hlast.ge]
    exact hrun

/-- Nothing that is left of a message is a marker: the decoder meets it as non-marker runs (R146, R158). -/
theorem restRuns_nonMarker (hc : literalsOk c = true) (hpos : SatPosition c l) (hmid : ¬(l.sat.r = 0 ∧ l.sat.k = 0)) :
    ∀ n ∈ restRuns c l, 1 ≤ n ∧ n < c.syncLen := by
  have hf := literalsOk_facts hc
  have hinside := position_inside_run_ahead hc hpos
  rw [← runLen_carried] at hinside
  have hbit : ∀ b, 1 ≤ bitRun c b ∧ bitRun c b < c.syncLen := fun b => by
    have := bitRun_bounds hc b
    omega
  refine List.forall_mem_cons.2 ⟨?_, List.forall_mem_map.2 fun j _ => hbit _⟩
  by_cases hr : l.sat.r = 0
  · have hk : l.sat.k.toNat ≠ 0 := fun h => hmid ⟨hr, BitVec.eq_of_toNat_eq h⟩
    rw [(runLen_eq_syncLen_iff hc).2 hr] at hinside ⊢
    omega
  · have := hbit ((carried l).getLsbD (l.sat.r.toNat - 1))
    rw [runLen_of_ne_zero hr] at hinside ⊢
    omega

theorem length_restRuns_le (c : Literals) (l : Link) : (restRuns c l).length ≤ c.payloadBits + 1 := by
  simp [restRuns]

theorem sum_range_if_le (f : Nat → Nat) {r n : Nat} (h : r ≤ n) :
    ((List.range n).map fun j => if r ≤ j then f j else 0).sum = ((List.range' r (n - r)).map f).sum := by
  have hsplit : List.range n = List.range r ++ List.range' r (n - r) := by
    rw [List.range_eq_range', List.range_eq_range']
    simpa [Nat.add_sub_cancel' h] using (List.range'_append_1 (s := 0) (m := r) (n := n - r)).symm
  have hbefore : ((List.range r).map fun j => if r ≤ j then f j else 0).sum = 0 :=
    List.sum_eq_zero (List.forall_mem_map.2 fun j hj => if_neg (Nat.not_le.2 (List.mem_range.1 hj)))
  rw [hsplit, List.map_append, List.sum_append, hbefore, Nat.zero_add]
  exact congrArg List.sum (List.map_congr_left fun j hj => if_pos (List.mem_range'_1.1 hj).1)

/-- R158: what is left of a message, in half-cycles. -/
theorem restOfMessage_eq_sum (hc : literalsOk c = true) (hpos : SatPosition c l) (hmid : ¬(l.sat.r = 0 ∧ l.sat.k = 0)) :
    restOfMessage c l = (restRuns c l).sum := by
  have hf := literalsOk_facts hc
  have hr := hpos.1
  have hinside := position_inside_run_ahead hc hpos
  rw [← runLen_carried] at hinside
  have hdata : ∀ j ∈ List.range' l.sat.r.toNat (c.payloadBits - l.sat.r.toNat),
      runLen c (BitVec.ofNat 4 (j + 1)) (carried l) = bitRun c ((carried l).getLsbD j) := fun j hj => by
    have := (List.mem_range'_1.1 hj).2
    exact runLen_dataRun (Nat.mod_eq_of_lt (by omega)) _
  have hruns : (List.range' l.sat.r.toNat (c.runsPerMsg - l.sat.r.toNat)).map
      (fun j => runLen c (BitVec.ofNat 4 j) (carried l)) =
      runLen c l.sat.r (carried l) ::
        (List.range' l.sat.r.toNat (c.payloadBits - l.sat.r.toNat)).map fun j => bitRun c ((carried l).getLsbD j) := by
    rw [Literals.runsPerMsg, Nat.succ_sub hr, List.range'_succ, List.range'_succ_left, List.map_cons, List.map_map,
      ← List.map_congr_left hdata, BitVec.ofNat_toNat, BitVec.setWidth_eq]
    rfl
  have hsum := sum_range_if_le (fun j => runLen c (BitVec.ofNat 4 j) (carried l))
    (show l.sat.r.toNat ≤ c.runsPerMsg from Nat.le_succ_of_le hr)
  rw [hruns, List.sum_cons] at hsum
  have hrest : restOfMessage c l = ((List.range c.runsPerMsg).map fun j =>
      if l.sat.r.toNat ≤ j then runLen c (BitVec.ofNat 4 j) (carried l) else 0).sum - l.sat.k.toNat := if_neg hmid
  rw [hrest, hsum, restRuns, List.sum_cons]
  omega

/-- The runs a decode call meets before the first marker it measures whole (R157, R158). -/
def skippedRuns (c : Literals) (l : Link) : List Nat := if l.sat.r = 0 ∧ l.sat.k = 0 then [] else restRuns c l

theorem skippedRuns_nonMarker (hc : literalsOk c = true) (hpos : SatPosition c l) :
    ∀ n ∈ skippedRuns c l, 1 ≤ n ∧ n < c.syncLen := by
  by_cases h : l.sat.r = 0 ∧ l.sat.k = 0
  · simp [skippedRuns, h]
  · rw [skippedRuns, if_neg h]
    exact restRuns_nonMarker hc hpos h

theorem length_skippedRuns_le (c : Literals) (l : Link) : (skippedRuns c l).length ≤ c.payloadBits + 1 := by
  rw [skippedRuns]
  split
  · exact Nat.zero_le _
  · exact length_restRuns_le c l

theorem sum_skippedRuns (hc : literalsOk c = true) (hpos : SatPosition c l) :
    (skippedRuns c l).sum = restOfMessage c l := by
  by_cases h : l.sat.r = 0 ∧ l.sat.k = 0
  · rw [skippedRuns, if_pos h, restOfMessage, if_pos h]; rfl
  · rw [skippedRuns, if_neg h, restOfMessage_eq_sum hc hpos h]

/-- The value a fault-free call returns: the second draw if run 1's draw still to come belongs to a marker already
begun, else the first (R129, R157). -/
def returnedValue (l : Link) : Sample :=
  portSample l.adc (if (l.sat.r = 0 ∧ l.sat.k ≠ 0) ∨ (l.sat.r = 1 ∧ l.sat.k = 0) then 1 else 0)

theorem portSample_portAhead (hmid : ¬(l.sat.r = 0 ∧ l.sat.k = 0)) : portSample (portAhead l) 0 = returnedValue l := by
  have hk : l.sat.r = 0 → l.sat.k ≠ 0 := fun hr hk => hmid ⟨hr, hk⟩
  have hiff : (l.sat.r = 0 ∨ (l.sat.r = 1 ∧ l.sat.k = 0)) ↔
      ((l.sat.r = 0 ∧ l.sat.k ≠ 0) ∨ (l.sat.r = 1 ∧ l.sat.k = 0)) := by
    rw [and_iff_left_of_imp hk]
  simp only [portAhead, returnedValue, hiff]
  split_ifs
  · exact portSample_succ _ _
  · rfl

/-- R157: from any position the satellite drives the skipped runs and then the whole message of the value to be
returned. -/
theorem drives_message (hc : literalsOk c = true) (hpos : SatPosition c l) :
    ∃ q l', Drives c q l (skippedRuns c l ++ runsOf c (returnedValue l)) l' ∧
      l'.sat.r = 0 ∧ l'.sat.k = 0 ∧ l'.sat.sample = returnedValue l := by
  by_cases h : l.sat.r = 0 ∧ l.sat.k = 0
  · have hvalue : returnedValue l = portSample l.adc 0 := by simp [returnedValue, h]
    rw [skippedRuns, if_pos h, List.nil_append, hvalue]
    exact ⟨_, _, (emits_message hc h.1 h.2).drives hc, rfl, rfl, rfl⟩
  · obtain ⟨q, l', hrest, hr, hk, hadc⟩ := drives_restRuns hc hpos
    have hmessage := (emits_message hc hr hk).drives hc
    rw [hadc, portSample_portAhead h] at hmessage
    rw [skippedRuns, if_neg h]
    exact ⟨q, _, hrest.append hmessage, rfl, rfl, rfl⟩

/-- At a message boundary one more clock event starts the marker (R121, R149). -/
theorem satReact_boundary (hc : literalsOk c = true) (hr : l.sat.r = 0) (hk : l.sat.k = 0) :
    (satReact c l).sat = { r := 0, k := 1, d := !l.sat.d, sample := l.sat.sample } := by
  have hf := literalsOk_facts hc
  have hahead : (sampleAhead l).1 = l.sat.sample := by simp [sampleAhead, hr]
  rw [satReact_start hk, (runLen_eq_syncLen_iff hc).2 hr, if_neg (by omega)]
  simp only [midRun, hr, hahead]

/-- Driven runs up to a message boundary are what a fault-free line shows, and the next marker's first half-cycle after
them (R149). -/
theorem Drives.shows {q : Bool} {rs : List Nat} {l' : Link} (hc : literalsOk c = true) (h : Drives c q l rs l')
    (hfree : FaultFree l) (hr : l'.sat.r = 0) (hk : l'.sat.k = 0) :
    l.shows c (levelsOf q (rs ++ [1])) ∧
      (linkSteps c (levelsOf q (rs ++ [1])).length l).sat =
        { r := 0, k := 1, d := !l'.sat.d, sample := l'.sat.sample } := by
  have hnext : (satReacts c (rs.sum + 1) l).sat = { r := 0, k := 1, d := !l'.sat.d, sample := l'.sat.sample } := by
    rw [satReacts_add, h.ends]
    exact satReact_boundary hc hr hk
  refine ⟨shows_of_faultFree hfree fun i b hb => ?_, ?_⟩
  · have hmarker : levelsOf l'.sat.d [1] = [!l'.sat.d] := rfl
    rw [levelsOf_append, ← h.last, hmarker, List.getElem?_append, length_levelsOf, List.getElem?_singleton] at hb
    split at hb
    · exact h.level i b hb
    · next hi =>
      split at hb
      · next hlast =>
        obtain rfl : i = rs.sum := by omega
        rw [hnext]
        exact Option.some.inj hb
      · cases hb
  · rw [length_levelsOf, List.sum_append, List.sum_singleton, (linkSteps_of_faultFree hfree _).1, hnext]

end Rest

/-! ### The call -/

section Call

variable {c : Literals} {l : Link}

/-- How many link steps a fault-free call makes (R158). -/
def callCost (c : Literals) (l : Link) : Nat := restOfMessage c l + (runsOf c (returnedValue l)).sum + 1

/-- R149, R157, R158: what a fault-free call makes of the satellite's runs, from any position. -/
theorem decodeCall_faultFree (hc : literalsOk c = true) (h10 : c.payloadBits = 10) (hfree : FaultFree l)
    (hpos : SatPosition c l) :
    ∃ d, decodeCall c l =
        (endCall (.value (returnedValue l)) (linkAfter c (callCost c l) d l), .value (returnedValue l)) ∧
      d.nonSync.toNat ≤ 11 ∧ (linkSteps c (callCost c l) l).sat.r = 0 ∧ (linkSteps c (callCost c l) l).sat.k = 1 ∧
      (linkSteps c (callCost c l) l).sat.sample = returnedValue l := by
  have hf := literalsOk_facts hc
  have hlen := length_skippedRuns_le c l
  obtain ⟨q, l', hdrives, hr, hk, hsample⟩ := drives_message hc hpos
  obtain ⟨hshows, hsat⟩ := hdrives.shows hc hfree hr hk
  obtain ⟨d, hd, hcall⟩ := judgedCall_value hc h10 (skippedRuns_nonMarker hc hpos) (by omega) hshows
  have hcost : (levelsOf q (skippedRuns c l ++ runsOf c (returnedValue l) ++ [1])).length = callCost c l := by
    rw [length_levelsOf, List.sum_append, List.sum_append, sum_skippedRuns hc hpos, List.sum_singleton, callCost]
  rw [hcost] at hcall hsat
  refine ⟨d, decodeCall_of_judgedCall hcall (hfree.clockSound _), ?_, ?_⟩
  · rw [hd, BitVec.toNat_ofNat]
    exact (Nat.mod_le _ _).trans (by omega)
  · rw [hsat]
    exact ⟨rfl, rfl, hsample⟩

end Call

/-- Settles O20: the skipped runs are no markers, so the call decodes the message after them. -/
theorem roundTripFromEveryPosition : Obligations.RoundTripFromEveryPosition := by
  intro s m hlit hline hr hk
  have hc : literalsOk s.par.lit = true := hlit ▸ literalsOk_given
  have h10 : s.par.lit.payloadBits = 10 := by rw [hlit]; rfl
  obtain ⟨d, hcall, -, hsat⟩ := decodeCall_faultFree hc h10 (faultFree_of_replicate hline) ⟨h10 ▸ hr, hk⟩
  exact ⟨_, _, (exec_linkDecode s).trans (by rw [hcall]), rfl, rfl, rfl, rfl, hsat.1, hsat.2.1, hsat.2.2, rfl⟩

theorem popcount_le (v : Sample) : popcount v ≤ 10 := by
  have hle := List.sum_le_card_nsmul ((List.range 10).map fun i => if v.getLsbD i then 1 else 0) 1
    (List.forall_mem_map.2 fun i _ => by split <;> omega)
  simpa [popcount] using hle

/-- Settles O21: the runs skipped are at most eleven, each of one or two half-cycles. -/
theorem stepsOfAFaultFreeCall : Obligations.StepsOfAFaultFreeCall := by
  intro s m hlit hline hr hk
  have hc : literalsOk s.par.lit = true := hlit ▸ literalsOk_given
  have h10 : s.par.lit.payloadBits = 10 := by rw [hlit]; rfl
  have hsync : s.par.lit.syncLen = 3 := by rw [hlit]; rfl
  have hpos : SatPosition s.par.lit s.link := ⟨h10 ▸ hr, hk⟩
  obtain ⟨d, hcall, hnonSync, -⟩ := decodeCall_faultFree hc h10 (faultFree_of_replicate hline) hpos
  have hcost : callCost s.par.lit s.link = restOfMessage s.par.lit s.link + 14 + popcount (returnedValue s.link) := by
    have := sum_runsOf_given (returnedValue s.link)
    rw [callCost, show (runsOf s.par.lit _).sum = _ from hlit ▸ this]
    omega
  have hrest : restOfMessage s.par.lit s.link ≤ 22 := by
    have hle := List.sum_le_card_nsmul (skippedRuns s.par.lit s.link) 2 fun n hn => by
      have := skippedRuns_nonMarker hc hpos n hn
      omega
    have hlen := length_skippedRuns_le s.par.lit s.link
    rw [sum_skippedRuns hc hpos, smul_eq_mul] at hle
    omega
  have hpop := popcount_le (returnedValue s.link)
  refine ⟨_, returnedValue s.link, (exec_linkDecode s).trans (by rw [hcall]), rfl, by omega, by omega, ?_, hnonSync⟩
  rw [← hcost, ← List.drop_replicate, ← hline]
  exact linkSteps_line _ _

/-- Settles O22: any call leaves the satellite inside a run, from where the round trip holds. -/
theorem nextCallRecoversFromAnyLineError : Obligations.NextCallRecoversFromAnyLineError := by
  intro s t hlit hr hk ht
  have hc : literalsOk s.par.lit = true := hlit ▸ literalsOk_given
  have h10 : s.par.lit.payloadBits = 10 := by rw [hlit]; rfl
  obtain rfl := Host.Outcome.next.inj ((exec_linkDecode s).symm.trans ht)
  obtain ⟨-, ⟨_, -, -, -, hpos⟩, -⟩ := decodeCall_cases hc s.link
  obtain ⟨hr', hk'⟩ := hpos ⟨h10 ▸ hr, hk⟩
  obtain ⟨u, v, hu, -, hraw, -, -, hr0, hk1, hsample, -⟩ :=
    roundTripFromEveryPosition
      { s with
        link := { (decodeCall s.par.lit s.link).1 with line := [] }
        ret := .decode (decodeCall s.par.lit s.link).2 } 0 hlit rfl (h10 ▸ hr') hk'
  exact ⟨u, hu, hsample ▸ hraw, hr0, hk1⟩

end Sys2Proof.Proofs
end

section
/-! PROOFS. The TemperatureFilter (spec/42_temperature_filter.md): the conversion (R170), one filter step (R172, R175),
readings of one temperature (R178), and the range of T under every operation (R179). -/

namespace Sys2Proof.Proofs

open Machine

theorem exec_tfConvert (v : Sample) (s : State) :
    exec (.tfConvert v) s = .next { s with ret := .temp (convert s.par v) } := rfl

theorem exec_tfUpdate (raw : Option Sample) (s : State) : exec (.tfUpdate raw) s = .next (updateTemperature raw s) := rfl

/-- What `TF.CONVERT` returns is `CONVERT(v)`. -/
theorem eq_convert_of_exec {v : Sample} {c : Temp} {s : State}
    (h : exec (.tfConvert v) s = .next { s with ret := .temp c }) : c = convert s.par v :=
  (Returned.temp.inj (congrArg State.ret (Host.Outcome.next.inj h))).symm

/-! ### The conversion -/

section Conversion

variable {c : Literals} {p : Params} {es : List Temp}

theorem literalsOk_ratioNum (h : literalsOk c = true) : 1 ≤ c.ratioNum := by
  simp only [literalsOk, Bool.and_eq_true, decide_eq_true_eq] at h
  omega

theorem instanceOk_convert (h : instanceOk p = true) : convertOk p.lit p.convert = true := by
  simp only [instanceOk, Bool.and_eq_true] at h
  tauto

theorem convert_affine (h : p.convert = .affine) (v : Sample) :
    convert p v = BitVec.ofInt 16 (convertAffine p.lit v) := by
  simp only [convert, h]

theorem convert_table (h : p.convert = .table es) (v : Sample) : convert p v = es.getD v.toNat 0 := by
  simp only [convert, h]

theorem nearLine_iff (v : Nat) (t : Temp) :
    nearLine c v t = true ↔
      (c.ratioNum * (t.toInt - c.tempRef) - c.ratioDen * ((v : Int) - c.rawRef)).natAbs < c.ratioNum := by
  simp only [nearLine, decide_eq_true_eq]
  omega

/-! The default expression. -/

theorem convertAffine_mono (hn : 1 ≤ c.ratioNum) {v w : Sample} (h : v.toNat ≤ w.toNat) :
    convertAffine c v ≤ convertAffine c w := by
  have hmul : ((v.toNat : Int) - c.rawRef) * c.ratioDen ≤ ((w.toNat : Int) - c.rawRef) * c.ratioDen :=
    mul_le_mul_of_nonneg_right (by omega) (Int.natCast_nonneg _)
  exact add_le_add_right (Int.tdiv_le_tdiv (by omega) hmul) _

theorem convertAffine_rawRef {v : Sample} (h : v.toNat = c.rawRef) : convertAffine c v = c.tempRef := by
  simp [convertAffine, h]

/-- The distance from the line is the remainder of the division, which is smaller than the divisor. -/
theorem convertAffine_near (hn : 1 ≤ c.ratioNum) (v : Sample) :
    (c.ratioNum * (convertAffine c v - c.tempRef) - c.ratioDen * ((v.toNat : Int) - c.rawRef)).natAbs < c.ratioNum := by
  have hdiv := Int.mul_tdiv_add_tmod (((v.toNat : Int) - c.rawRef) * c.ratioDen) c.ratioNum
  have hrem : c.ratioNum * (convertAffine c v - c.tempRef) - c.ratioDen * ((v.toNat : Int) - c.rawRef) =
      -(((v.toNat : Int) - c.rawRef) * c.ratioDen).tmod c.ratioNum := by
    rw [convertAffine, add_sub_cancel_left, mul_comm (c.ratioDen : Int)]
    omega
  rw [hrem, Int.natAbs_neg, Int.natAbs_tmod, Int.natAbs_natCast]
  exact Nat.mod_lt _ hn

/-- A valid default expression stays inside s16, so its value is the temperature. -/
theorem toInt_convert_affine (hn : 1 ≤ p.lit.ratioNum) (hok : convertOk p.lit .affine = true) (h : p.convert = .affine)
    (v : Sample) : (convert p v).toInt = convertAffine p.lit v := by
  have hv := v.isLt
  simp only [convertOk, decide_eq_true_eq] at hok
  have hlo := convertAffine_mono hn (show (0 : Sample).toNat ≤ v.toNat from Nat.zero_le _)
  have hhi := convertAffine_mono hn (show v.toNat ≤ (1023 : Sample).toNat from Nat.le_of_lt_succ hv)
  rw [convert_affine h]
  exact BitVec.toInt_ofInt_eq_self (by omega) (by omega) (by omega)

/-! A table. -/

theorem convertOk_table (h : convertOk c (.table es) = true) :
    es.length = 1024 ∧ (es.getD c.rawRef 0).toInt = c.tempRef ∧ nonDecreasing es = true ∧
      ∀ v < 1024, nearLine c v (es.getD v 0) = true := by
  simpa only [convertOk, Bool.and_eq_true, decide_eq_true_eq, List.all_eq_true, List.mem_range, and_assoc] using h

theorem sortedLE_of_nonDecreasing (h : nonDecreasing es = true) : (es.map BitVec.toInt).SortedLE := by
  rw [List.sortedLE_iff_isChain]
  induction es with
  | nil => exact .nil
  | cons a es ih =>
    cases es with
    | nil => exact .singleton _
    | cons b es =>
      simp only [nonDecreasing, Bool.and_eq_true, decide_eq_true_eq] at h
      exact .cons_cons h.1 (ih h.2)

theorem getD_mono_of_nonDecreasing (h : nonDecreasing es = true) {i j : Nat} (hij : i ≤ j) (hj : j < es.length) :
    (es.getD i 0).toInt ≤ (es.getD j 0).toInt := by
  have hle := (sortedLE_of_nonDecreasing h).getElem_le_getElem_of_le (hi := by simp; omega) (hj := by simpa using hj) hij
  rw [List.getD_eq_getElem _ _ (hij.trans_lt hj), List.getD_eq_getElem _ _ hj]
  simpa using hle

/-! Every valid instance. -/

theorem ratioNum_pos (hp : instanceOk p = true) : 1 ≤ p.lit.ratioNum := literalsOk_ratioNum (instanceOk_literals hp)

theorem toInt_convert_of_valid (hp : instanceOk p = true) (h : p.convert = .affine) (v : Sample) :
    (convert p v).toInt = convertAffine p.lit v :=
  toInt_convert_affine (ratioNum_pos hp) (h ▸ instanceOk_convert hp) h v

theorem convert_mono (hp : instanceOk p = true) {v w : Sample} (h : v.toNat ≤ w.toNat) :
    (convert p v).toInt ≤ (convert p w).toInt := by
  cases hc : p.convert with
  | affine =>
    rw [toInt_convert_of_valid hp hc, toInt_convert_of_valid hp hc]
    exact convertAffine_mono (ratioNum_pos hp) h
  | table es =>
    obtain ⟨hlen, -, hmono, -⟩ := convertOk_table (hc ▸ instanceOk_convert hp)
    rw [convert_table hc, convert_table hc]
    exact getD_mono_of_nonDecreasing hmono h (hlen ▸ w.isLt)

theorem convert_rawRef (hp : instanceOk p = true) {v : Sample} (h : v.toNat = p.lit.rawRef) :
    (convert p v).toInt = p.lit.tempRef := by
  cases hc : p.convert with
  | affine => rw [toInt_convert_of_valid hp hc, convertAffine_rawRef h]
  | table es =>
    obtain ⟨-, href, -, -⟩ := convertOk_table (hc ▸ instanceOk_convert hp)
    rw [convert_table hc, h, href]

theorem convert_near (hp : instanceOk p = true) (v : Sample) : nearLine p.lit v.toNat (convert p v) = true := by
  cases hc : p.convert with
  | affine =>
    rw [nearLine_iff, toInt_convert_of_valid hp hc]
    exact convertAffine_near (ratioNum_pos hp) v
  | table es =>
    obtain ⟨-, -, -, hnear⟩ := convertOk_table (hc ▸ instanceOk_convert hp)
    rw [convert_table hc]
    exact hnear v.toNat v.isLt

end Conversion

/-- Settles O23: each clause for the default expression and for a table; the default is inside one degree because the
division's remainder is smaller than the divisor. -/
theorem convertRawToCelsius : Obligations.ConvertRawToCelsius := by
  intro s v hp
  refine ⟨convert s.par v, exec_tfConvert v s, fun hc => toInt_convert_of_valid hp hc v, fun hc hlit => ?_,
    convert_rawRef hp, (nearLine_iff _ _).1 (convert_near hp v), fun w c' hvw he => ?_⟩
  · rw [toInt_convert_of_valid hp hc v, hlit]
    rfl
  · rw [eq_convert_of_exec he]
    exact convert_mono hp hvw

/-! ### Readings of one temperature -/

section Settling

variable {margin : Nat} {t inst : Temp}

/-- Where T comes to rest under readings of `inst` (R178): MARGIN short of it on the side T is on, or where T is. -/
def settlePoint (margin : Nat) (inst t : Int) : Int := max (inst - margin) (min t (inst + margin))

/-- One step goes one degree toward the point of rest, which stays the same, and T stays on its side of 0. -/
theorem filterStep_toward_settlePoint (h : 0 < t.toInt * settlePoint margin inst.toInt t.toInt) :
    settlePoint margin inst.toInt (filterStep margin t inst).toInt = settlePoint margin inst.toInt t.toInt ∧
      (inst.toInt - (filterStep margin t inst).toInt).natAbs - margin = (inst.toInt - t.toInt).natAbs - margin - 1 ∧
      0 < (filterStep margin t inst).toInt * settlePoint margin inst.toInt t.toInt := by
  have hside := pos_and_pos_or_neg_and_neg_of_mul_pos h
  have hbetween : ∀ x, min t.toInt (settlePoint margin inst.toInt t.toInt) ≤ x ∧
      x ≤ max t.toInt (settlePoint margin inst.toInt t.toInt) →
      0 < x * settlePoint margin inst.toInt t.toInt := by
    rintro x ⟨hlo, hhi⟩
    rcases hside with ⟨ht, hs⟩ | ⟨ht, hs⟩
    · exact mul_pos (by omega) hs
    · exact mul_pos_of_neg_of_neg (by omega) hs
  rcases filterStep_cases margin t inst with ⟨rfl, -⟩ | ⟨-, hlt, e⟩ | ⟨-, hlt, e⟩ | ⟨-, hle, e⟩
  · simp at h
  · refine ⟨?_, ?_, hbetween _ ?_⟩ <;> simp only [settlePoint, e] <;> omega
  · refine ⟨?_, ?_, hbetween _ ?_⟩ <;> simp only [settlePoint, e] <;> omega
  · rw [e]
    exact ⟨rfl, by omega, h⟩

/-- R178 from any state, by induction on the readings. -/
theorem execList_tfUpdate_settles (inst : Int) (readings : List Sample) (s : State)
    (hconv : ∀ v ∈ readings, (convert s.par v).toInt = inst)
    (hside : 0 < s.temp.toInt * settlePoint s.par.lit.margin inst s.temp.toInt)
    (hlen : (inst - s.temp.toInt).natAbs - s.par.lit.margin ≤ readings.length) :
    ∃ t, execList (readings.map (fun v => .tfUpdate (some v))) s = .next t ∧
      t.temp.toInt = settlePoint s.par.lit.margin inst s.temp.toInt ∧
      t = { s with temp := t.temp, sensorFault := t.sensorFault } := by
  induction readings generalizing s with
  | nil =>
    rw [List.length_nil] at hlen
    exact ⟨s, rfl, by rw [settlePoint]; omega, rfl⟩
  | cons v readings ih =>
    obtain ⟨hv, hconv⟩ := List.forall_mem_cons.1 hconv
    subst hv
    obtain ⟨hpoint, hdist, hside'⟩ := filterStep_toward_settlePoint hside
    rw [List.length_cons] at hlen
    obtain ⟨t, ht, htemp, hframe⟩ :=
      ih (updateTemperature (some v) s) hconv (by rw [updateTemperature_some]; rwa [hpoint])
        (by rw [updateTemperature_some]; dsimp only; omega)
    exact ⟨t, ht, htemp.trans hpoint, hframe⟩

end Settling

/-- Settles O25: `execList_tfUpdate_settles`. -/
theorem filterSettlesThreeShort : Obligations.FilterSettlesThreeShort := by
  rintro s readings inst stop hconv rfl hside hlen
  exact execList_tfUpdate_settles inst readings s hconv hside hlen

/-! ### The range of T -/

section Range

variable {i : Instr} {s t : State}

/-- A filter step ends between T and the instantaneous value. -/
theorem filterStep_mem_range {lo hi : Int} (margin : Nat) {t inst : Temp} (ht : lo ≤ t.toInt ∧ t.toInt ≤ hi)
    (hinst : lo ≤ inst.toInt ∧ inst.toInt ≤ hi) :
    lo ≤ (filterStep margin t inst).toInt ∧ (filterStep margin t inst).toInt ≤ hi := by
  rcases filterStep_cases margin t inst with ⟨-, e⟩ | ⟨-, hlt, e⟩ | ⟨-, hlt, e⟩ | ⟨-, -, e⟩ <;> rw [e]
  · exact hinst
  · omega
  · omega
  · exact ht

/-- What an operation makes of T: nothing, UNKNOWN, or a filter step (R172, R310). -/
theorem exec_temp_cases (hne : i ≠ .ctrlTick) (he : exec i s = .next t) :
    t.temp = s.temp ∨ t.temp = 0 ∨ ∃ v, t.temp = filterStep s.par.lit.margin s.temp (convert s.par v) := by
  by_cases hreset : i = .reset .main
  · subst hreset
    exact .inr (.inl (Host.Outcome.next.inj he ▸ resetMain_temp s))
  by_cases htemp : t.temp = s.temp
  · exact .inl htemp
  obtain ⟨-, -, -, -, -, -, hwriters⟩ := eachRegisterHasItsWriter i s t he
  obtain ⟨raw, rfl⟩ := (hwriters hne hreset).1 (.inl htemp)
  rw [exec_tfUpdate] at he
  cases he
  cases raw with
  | none => exact .inr (.inl rfl)
  | some v => exact .inr (.inr ⟨v, rfl⟩)

/-- The default expression runs from -50 at 0 to 448 at 1023 (R171). -/
theorem convert_given_range {p : Params} (hlit : p.lit = Literals.given) (hc : p.convert = .affine) (v : Sample) :
    -50 ≤ (convert p v).toInt ∧ (convert p v).toInt ≤ 448 := by
  have hn : 1 ≤ Literals.given.ratioNum := by decide
  have hlo := convertAffine_mono hn (show (0 : Sample).toNat ≤ v.toNat from Nat.zero_le _)
  have hhi := convertAffine_mono hn (show v.toNat ≤ (1023 : Sample).toNat from Nat.le_of_lt_succ v.isLt)
  rw [show convertAffine Literals.given 0 = -50 by decide] at hlo
  rw [show convertAffine Literals.given 1023 = 448 by decide] at hhi
  rw [toInt_convert_affine (hlit ▸ hn) (by rw [hlit]; decide) hc, hlit]
  exact ⟨hlo, hhi⟩

/-- The literals as given, the default CONVERT, and T between its extreme values (R179). -/
structure TempInRange (s : State) : Prop where
  lit : s.par.lit = Literals.given
  convert : s.par.convert = .affine
  temp : -50 ≤ s.temp.toInt ∧ s.temp.toInt ≤ 448

theorem exec_tempInRange_of_ne_ctrlTick (hne : i ≠ .ctrlTick) (h : TempInRange s) (he : exec i s = .next t) :
    TempInRange t := by
  have hpar := (exec_surroundings he).1.par
  refine ⟨hpar ▸ h.lit, hpar ▸ h.convert, ?_⟩
  rcases exec_temp_cases hne he with e | e | ⟨v, e⟩ <;> rw [e]
  · exact h.temp
  · decide
  · exact filterStep_mem_range _ h.temp (convert_given_range h.lit h.convert v)

theorem tempInRange_keptInTick : KeptInTick TempInRange := fun _ _ _ hi h he =>
  exec_tempInRange_of_ne_ctrlTick (by rintro rfl; cases hi) h he

theorem controlTick_tempInRange (h : TempInRange s) : TempInRange (controlTick s) := by
  obtain ⟨as, v, hv, e⟩ := controlTick_keeps tempInRange_keptInTick (fun u b hu => { hu with }) h
  rw [e]
  exact { hv with }

theorem exec_tempInRange (h : TempInRange s) (he : exec i s = .next t) : TempInRange t := by
  by_cases hi : i = .ctrlTick
  · subst hi
    obtain ⟨-, -, ht⟩ := execCtrlTick_cases he
    exact ht ▸ controlTick_tempInRange h
  · exact exec_tempInRange_of_ne_ctrlTick hi h he

end Range

/-- Settles O26: the range is kept by `exec_tempInRange`, the instance by every operation. -/
theorem temperatureStaysInRange : Obligations.TemperatureStaysInRange := fun _ _ _ hlit hc hlo hhi he =>
  ⟨(exec_surroundings he).1.par, (exec_tempInRange ⟨hlit, hc, hlo, hhi⟩ he).temp⟩

/-! ### One filter step -/

/-! In a namespace of its own, so that `filterStep` stays the model's function everywhere else. -/

namespace TemperatureFilter

/-- Settles O24, by the cases of `filterStep`. -/
theorem filterStep : Obligations.FilterStep := by
  intro s
  refine ⟨rfl, fun v inst hinst => ?_⟩
  obtain rfl := eq_convert_of_exec hinst
  refine ⟨updateTemperature (some v) s, rfl, rfl, ?_⟩
  rw [updateTemperature_some]
  dsimp only
  rcases filterStep_cases s.par.lit.margin s.temp (convert s.par v) with
    ⟨h0, e⟩ | ⟨h0, hlt, e⟩ | ⟨h0, hlt, e⟩ | ⟨h0, hle, e⟩
  · exact ⟨fun _ => e, fun h => absurd h0 h⟩
  · exact ⟨fun h => absurd h h0, fun _ => ⟨fun _ => e, by omega, by omega⟩⟩
  · exact ⟨fun h => absurd h h0, fun _ => ⟨by omega, fun _ => e, by omega⟩⟩
  · exact ⟨fun h => absurd h h0, fun _ => ⟨by omega, by omega, fun _ => e⟩⟩

end TemperatureFilter

end Sys2Proof.Proofs
end

section
/-! PROOFS. The SpikeDetector (spec/43_spike_detector.md): SD.CLEAR (R186), the cases of SD.TICK (R185, R187 to R189, R191),
and the cooldown over several cadence ticks (R190). -/

namespace Sys2Proof.Proofs

open Machine

theorem exec_sdClear (s : State) : exec .sdClear s = .next (clearHistory s) := rfl

theorem exec_sdTick (s : State) : exec .sdTick s = .next (spikeTick s) := rfl

/-- Settles O27, by the definition of `clearHistory`. -/
theorem spikeHistoryClear : Obligations.SpikeHistoryClear := exec_sdClear

/-! ### One tick -/

section SpikeTick

variable {s : State}

/-- The cases of the spike tick (R185, R191) as one ordered chain. -/
theorem spikeTick_eq (s : State) :
    spikeTick s =
      if s.cad.spike.toNat < s.par.lit.spikePeriod then s
      else if 0 < s.cooldown.toNat then { s with cad := { s.cad with spike := 0 }, cooldown := s.cooldown - 1 }
      else if s.sensorFault then { s with cad := { s.cad with spike := 0 } }
      else sampleHistory { s with cad := { s.cad with spike := 0 } } := by
  rcases spikeTick_cases s with ⟨hd, e⟩ | ⟨hd, hc, e⟩ | ⟨hd, hc, hf, e⟩ | ⟨hd, hc, hf, e⟩
  · rw [e, if_pos hd]
  · rw [e, if_neg (not_lt.2 hd), if_pos (by bv_omega)]
  · rw [e, if_neg (not_lt.2 hd), if_neg (by simp [hc]), if_pos hf]
  · rw [e, if_neg (not_lt.2 hd), if_neg (by simp [hc]), if_neg (by simp [hf])]

theorem spikeTick_armed (hdue : s.par.lit.spikePeriod ≤ s.cad.spike.toNat) (hc : 0 < s.cooldown.toNat) :
    spikeTick s = { s with cad := { s.cad with spike := 0 }, cooldown := s.cooldown - 1 } := by
  rw [spikeTick_eq, if_neg (not_lt.2 hdue), if_pos hc]

/-- The comparison (R188, R189) over the sample `width` places back, which exists once `width + 1` samples are held. -/
theorem spikeSeen_cons_iff (cfg : Thresholds) (newest : Temp) (older : List Temp) :
    spikeSeen cfg (newest :: older) = true ↔
      ∃ ref, (newest :: older)[cfg.width.toNat]? = some ref ∧ ref.toInt < newest.toInt ∧
        (cfg.height.toNat : Int) ≤ newest.toInt - ref.toInt := by
  simp only [spikeSeen, isSpike, Bool.and_eq_true, decide_eq_true_eq, List.getD_cons_zero]
  constructor
  · rintro ⟨hlen, hrise⟩
    exact ⟨_, (List.getElem?_eq_getElem hlen).trans (congrArg some (List.getD_eq_getElem _ _ hlen).symm), hrise⟩
  · rintro ⟨ref, href, hrise⟩
    rw [List.getD_eq_getElem?_getD, href]
    exact ⟨(List.getElem?_eq_some_iff.1 href).1, hrise⟩

/-- One sample for every width the configuration admits (R187, R39). -/
theorem sampleHistory_eq (hw : s.cfg.width.toNat ≤ s.par.lit.spikeWidthMax) :
    sampleHistory s =
      if spikeSeen s.cfg (s.temp :: s.hist.take s.cfg.width.toNat) then { s with cooldown := s.cfg.reset, hist := [] }
      else { s with hist := s.temp :: s.hist.take s.cfg.width.toNat } := by
  rw [sampleHistory, pushHistory_eq_take _ _ _ _ hw, List.take_succ_cons]

/-- The due tick that samples, with its frame (R185). -/
theorem spikeTick_samples (hw : s.cfg.width.toNat ≤ s.par.lit.spikeWidthMax)
    (hdue : s.par.lit.spikePeriod ≤ s.cad.spike.toNat) (hc : s.cooldown.toNat = 0) (hf : s.sensorFault = false) :
    spikeTick s =
      if spikeSeen s.cfg (s.temp :: s.hist.take s.cfg.width.toNat) then
        { s with cad := { s.cad with spike := 0 }, cooldown := s.cfg.reset, hist := [] }
      else { s with cad := { s.cad with spike := 0 }, hist := s.temp :: s.hist.take s.cfg.width.toNat } := by
  rw [spikeTick_eq, if_neg (not_lt.2 hdue), if_neg hc.not_gt, if_neg (by simp [hf])]
  exact sampleHistory_eq hw

end SpikeTick

/-- Settles O28: the chain of `spikeTick_eq`; what the sampling tick does is decided by `spikeSeen_cons_iff`. -/
theorem spikeDetectorTick : Obligations.SpikeDetectorTick := by
  intro s hw
  rw [exec_sdTick]
  refine ⟨fun hnot => ?_, fun hdue hc => ?_, fun hdue hc hf => ?_, ?_⟩
  · rw [spikeTick_eq, if_pos hnot]
  · rw [spikeTick_armed hdue hc]
  · rw [spikeTick_eq, if_neg (not_lt.2 hdue), if_neg hc.not_gt, if_pos hf]
  · rintro hdue hc hf h rfl
    rw [spikeTick_samples hw hdue hc hf, List.take_succ_cons]
    refine ⟨fun hspike => ?_, fun hnone => ?_⟩
    · rw [if_pos ((spikeSeen_cons_iff _ _ _).2 hspike)]
    · rw [if_neg fun hseen => ?_]
      obtain ⟨ref, href, hlt, hle⟩ := (spikeSeen_cons_iff _ _ _).1 hseen
      have := hnone ref href
      omega

/-! ### Timer ticks in a row -/

/-- `n` timer ticks on one counter (R255). -/
def countUpBy (n : Nat) (c : Counter) : Counter := BitVec.ofNat 16 (min (c.toNat + n) 65535)

theorem countUpBy_toNat (n : Nat) (c : Counter) : (countUpBy n c).toNat = min (c.toNat + n) 65535 := by
  rw [countUpBy, BitVec.toNat_ofNat]
  omega

theorem countUpBy_zero (c : Counter) : countUpBy 0 c = c :=
  BitVec.eq_of_toNat_eq (by rw [countUpBy_toNat]; omega)

theorem countUpBy_countUp (n : Nat) (c : Counter) : countUpBy n (countUp c) = countUpBy (n + 1) c :=
  BitVec.eq_of_toNat_eq (by rw [countUpBy_toNat, countUpBy_toNat, countUp_toNat]; omega)

theorem execList_timerTicks (n : Nat) (s : State) :
    execList (List.replicate n .timerTick) s = .next { s with cad := {
      ramp := countUpBy n s.cad.ramp
      spike := countUpBy n s.cad.spike
      stuck := countUpBy n s.cad.stuck
      full := countUpBy n s.cad.full } } := by
  induction n generalizing s with
  | zero => simp only [countUpBy_zero]; rfl
  | succ n ih =>
    simp only [← countUpBy_countUp]
    exact ih (timerWork s)

/-! ### The cooldown -/

section Cooldown

variable {s : State}

/-- SPIKE_PERIOD timer ticks make an SD.TICK due, whatever the counter held before. -/
theorem execList_spikePeriod_armed (hperiod : s.par.lit.spikePeriod ≤ 65535) (hc : 0 < s.cooldown.toNat) :
    ∃ cad, execList (List.replicate s.par.lit.spikePeriod .timerTick ++ [.sdTick]) s =
      .next { s with cad := cad, cooldown := s.cooldown - 1 } := by
  have hdue : s.par.lit.spikePeriod ≤ (countUpBy s.par.lit.spikePeriod s.cad.spike).toNat := by
    rw [countUpBy_toNat]
    omega
  rw [execList_append (execList_timerTicks _ s), execList, exec_sdTick]
  exact ⟨_, congrArg Host.Outcome.next (spikeTick_armed hdue hc)⟩

/-- R190 with the frame, by induction on the cadence ticks. -/
theorem execList_cooldown (n : Nat) (s : State) (hperiod : s.par.lit.spikePeriod ≤ 65535) (hn : n ≤ s.cooldown.toNat) :
    ∃ cad cooldown,
      execList (List.replicate n (List.replicate s.par.lit.spikePeriod .timerTick ++ [.sdTick])).flatten s =
        .next { s with cad := cad, cooldown := cooldown } ∧
      cooldown.toNat = s.cooldown.toNat - n := by
  induction n generalizing s with
  | zero => exact ⟨_, _, rfl, rfl⟩
  | succ n ih =>
    obtain ⟨cad, hround⟩ := execList_spikePeriod_armed hperiod (by omega)
    have hdown : (s.cooldown - 1).toNat = s.cooldown.toNat - 1 := by bv_omega
    obtain ⟨cad', cooldown, hrest, hcooldown⟩ :=
      ih { s with cad := cad, cooldown := s.cooldown - 1 } hperiod (by rw [hdown]; omega)
    refine ⟨cad', cooldown, ?_, ?_⟩
    · rw [List.replicate_succ, List.flatten_cons, execList_append hround]
      exact hrest
    · rw [hcooldown, hdown]
      omega

end Cooldown

/-- Settles O29: `execList_cooldown`. -/
theorem cooldownFreezesTheHistory : Obligations.CooldownFreezesTheHistory := by
  intro s n hperiod hn
  obtain ⟨cad, cooldown, hrun, hcooldown⟩ := execList_cooldown n s hperiod hn
  exact ⟨_, hrun, hcooldown, rfl⟩

end Sys2Proof.Proofs
end

section
/-! PROOFS. The FanRampController (spec/44_fan_ramp_controller.md): the transitions of RunState (R204) and the ramp tick
(R205, R207). -/

namespace Sys2Proof.Proofs

open Machine

theorem exec_frState (s : State) : exec .frState s = .next (updateRunState s) := rfl

theorem exec_frRamp (s : State) : exec .frRamp s = .next (rampTick s) := rfl

/-! ### The RunState -/

theorem spikeArmed_iff (s : State) : s.spikeArmed = true ↔ 0 < s.cooldown.toNat := by
  rw [State.spikeArmed, decide_eq_true_iff]
  bv_omega

/-- The rows of the transition table (R204), with the cooldown as a number. -/
theorem nextRunState_eq (s : State) :
    nextRunState s =
      if s.sensorFault = true then .off
      else if 0 < s.cooldown.toNat then .spike
      else if s.temp.toInt ≤ (s.cfg.off.toNat : Int) then .off
      else if (s.cfg.on.toNat : Int) ≤ s.temp.toInt then .on
      else s.runState := by
  simp only [nextRunState, spikeArmed_iff]

/-- Settles O30: the table of `nextRunState_eq`. -/
theorem runStateTransitions : Obligations.RunStateTransitions := by
  intro s
  rw [exec_frState, updateRunState, nextRunState_eq]

/-! ### The ramp -/

section Ramp

variable {s : State}

/-! The next count (R205): each direction, moving and at its end. -/

theorem nextFanCount_down (hoff : s.runState = .off) (hpos : 0 < s.fanCount.toNat) :
    nextFanCount s = s.fanCount - 1 := by
  rw [nextFanCount, if_pos hoff, if_pos hpos]

theorem nextFanCount_bottom (hoff : s.runState = .off) (hzero : s.fanCount.toNat = 0) :
    nextFanCount s = s.fanCount := by
  rw [nextFanCount, if_pos hoff, if_neg hzero.not_gt]

theorem nextFanCount_up (hon : s.runState ≠ .off) (hlt : s.fanCount.toNat < s.par.fanAmount) :
    nextFanCount s = s.fanCount + 1 := by
  rw [nextFanCount, if_neg hon, if_pos hlt]

theorem nextFanCount_top (hon : s.runState ≠ .off) (hall : s.fanCount.toNat = s.par.fanAmount) :
    nextFanCount s = s.fanCount := by
  rw [nextFanCount, if_neg hon, if_neg hall.not_lt]

/-! The tick, by what the next count is: the settle counter restarts exactly when it is another one. -/

theorem rampTick_not_due (hnot : s.cad.ramp.toNat < s.par.rampPeriod) : rampTick s = s := by
  rcases due_cases s.cad.ramp s.par.rampPeriod with ⟨hdue, -⟩ | ⟨-, hd⟩
  · omega
  · simp [rampTick, hd]

theorem rampTick_due (hdue : s.par.rampPeriod ≤ s.cad.ramp.toNat) :
    rampTick s = { s with
      fanCount := nextFanCount s
      cad := { s.cad with ramp := 0, full := if nextFanCount s = s.fanCount then s.cad.full else 0 } } := by
  rcases due_cases s.cad.ramp s.par.rampPeriod with ⟨-, hd⟩ | ⟨hnot, -⟩
  · simp only [rampTick, hd, if_true]
  · omega

theorem rampTick_moves {n : Byte} (hdue : s.par.rampPeriod ≤ s.cad.ramp.toNat) (hn : nextFanCount s = n)
    (hne : n ≠ s.fanCount) :
    rampTick s = { s with fanCount := n, cad := { s.cad with ramp := 0, full := 0 } } := by
  rw [rampTick_due hdue, hn, if_neg hne]

theorem rampTick_stays (hdue : s.par.rampPeriod ≤ s.cad.ramp.toNat) (hn : nextFanCount s = s.fanCount) :
    rampTick s = { s with cad := { s.cad with ramp := 0 } } := by
  rw [rampTick_due hdue, if_pos hn, hn]

end Ramp

/-- Settles O31: the next count by direction, then `rampTick_moves` or `rampTick_stays`. -/
theorem rampMovesOneFan : Obligations.RampMovesOneFan := by
  intro s _ _
  rw [exec_frRamp]
  refine ⟨fun hnot => by rw [rampTick_not_due hnot], fun hdue =>
    ⟨fun hoff hpos => ?_, fun hoff hzero => ?_, fun hon hlt => ?_, fun hon hall => ?_⟩⟩
  · rw [rampTick_moves hdue (nextFanCount_down hoff hpos) (by bv_omega)]
  · rw [rampTick_stays hdue (nextFanCount_bottom hoff hzero)]
  · have hsucc : s.fanCount + 1 = BitVec.ofNat 8 (s.fanCount.toNat + 1) := by bv_omega
    rw [rampTick_moves hdue (nextFanCount_up hon hlt) (by bv_omega), hsucc]
  · rw [rampTick_stays hdue (nextFanCount_top hon hall)]

end Sys2Proof.Proofs
end

section
/-! PROOFS. The TachometerMonitor (spec/45_tachometer_monitor.md): the gate (R226), the measurement cycle (R228, R232)
and the report (R235), and a line that never toggles (R236). -/

namespace Sys2Proof.Proofs

open Machine

theorem exec_tmGate (s : State) : exec .tmGate s = .next { s with ret := .gate s.measurementEligible } := rfl

theorem exec_tmMeasure (s : State) : exec .tmMeasure s = .next (measureFans s) := rfl

theorem exec_tmReport (s : State) : exec .tmReport s = .next (reportStuck s) := rfl

/-! ### The gate -/

theorem measurementEligible_iff (s : State) :
    s.measurementEligible = true ↔ s.fanCount.toNat = s.par.fanAmount ∧ s.par.tachSettle ≤ s.cad.full.toNat :=
  decide_eq_true_iff

/-- Settles O34: `measurementEligible_iff`. -/
theorem measurementGate : Obligations.MeasurementGate :=
  fun s => ⟨s.measurementEligible, exec_tmGate s, measurementEligible_iff s⟩

/-! ### One fan's counter -/

theorem nextStuck_changed (maxStuck : Nat) (eligible : Bool) (c : Byte) : nextStuck maxStuck true eligible c = 0 := rfl

theorem nextStuck_not_eligible (maxStuck : Nat) (c : Byte) : nextStuck maxStuck false false c = c := rfl

theorem nextStuck_eligible_toNat {maxStuck : Nat} (hm : maxStuck ≤ 255) (c : Byte) :
    (nextStuck maxStuck false true c).toNat = min (c.toNat + 1) maxStuck := by
  rw [nextStuck, if_neg Bool.false_ne_true, if_pos rfl, BitVec.toNat_ofNat]
  omega

theorem countEligible_iff (s : State) : s.countEligible = true ↔ s.par.lit.stuckPeriod ≤ s.cad.stuck.toNat :=
  decide_eq_true_iff

/-! ### The window -/

theorem instanceOk_tachSamples {p : Params} (h : instanceOk p = true) : 1 ≤ p.tachSamples := by
  simp only [instanceOk, Bool.and_eq_true, decide_eq_true_eq] at h
  tauto

/-- Line `f` differs from the reference, sample 0, in one of the first `n` re-samples (R228). -/
def Toggled (p : Port TachVec) (f n : Nat) : Prop :=
  ∃ i, 1 ≤ i ∧ i ≤ n ∧ (portSample p i).getLsbD f ≠ (portSample p 0).getLsbD f

/-- What the re-samples accumulate starts at nothing and compares sample `i + 1` of the port. -/
theorem toggled_iff (p : Port TachVec) (f n : Nat) :
    Toggled p f n ↔ (0 : TachVec).getLsbD f = true ∨
      ∃ i, i < n ∧ (portSample (samplePort p).2 i).getLsbD f ≠ (samplePort p).1.getLsbD f := by
  simp only [portSample_succ, samplePort_fst]
  constructor
  · rintro ⟨i, h1, hn, hne⟩
    exact .inr ⟨i - 1, by omega, by rwa [Nat.sub_add_cancel h1]⟩
  · rintro (h | ⟨i, hn, hne⟩)
    · simp at h
    · exact ⟨i + 1, by omega, by omega, hne⟩

/-- The lines `TM.MEASURE` finds toggling, and the port after its window. -/
def measuredLines (s : State) : TachVec × Port TachVec :=
  sampleWindow s.par.fanAmount (samplePort s.tach).1 s.par.tachSamples 0 (samplePort s.tach).2

/-- `sampleWindow_spec` counted from the reference: `m` re-samples after it (R228, R229). -/
theorem measuredLines_spec {s : State} (h : 1 ≤ s.par.tachSamples) :
    ∃ m, 1 ≤ m ∧ m ≤ s.par.tachSamples ∧
      (∀ i, portSample (measuredLines s).2 i = portSample s.tach (i + (1 + m))) ∧
      (measuredLines s).2.draws = s.tach.draws.drop (1 + m) ∧
      (∀ f, (measuredLines s).1.getLsbD f = true ↔ Toggled s.tach f m) ∧
      (∀ n, 1 ≤ n → n < m → ∃ f < s.par.fanAmount, ¬Toggled s.tach f n) ∧
      (m < s.par.tachSamples → ∀ f < s.par.fanAmount, Toggled s.tach f m) := by
  obtain ⟨m, hle, hpos, hport, hdraws, hseen, hall, hearlier⟩ :=
    sampleWindow_spec s.par.fanAmount (samplePort s.tach).1 s.par.tachSamples 0 (samplePort s.tach).2
  simp only [← toggled_iff] at hseen hearlier
  refine ⟨m, hpos h, hle, fun i => ?_, ?_, hseen, hearlier, fun hm f hf => (hseen f).1 (hall hm f hf)⟩
  · rw [measuredLines, hport, portSample_succ, Nat.add_assoc, Nat.add_comm m]
  · rw [measuredLines, hdraws, samplePort_draws, List.drop_tail, Nat.add_comm]

/-! ### The measurement -/

theorem measureFans_eq (s : State) :
    measureFans s = { s with
      cad := { s.cad with stuck := if s.par.lit.stuckPeriod ≤ s.cad.stuck.toNat then 0 else s.cad.stuck }
      tach := (measuredLines s).2
      stuck := (measureFans s).stuck } := by
  have hconsumed : (due s.cad.stuck s.par.lit.stuckPeriod).2 =
      if s.par.lit.stuckPeriod ≤ s.cad.stuck.toNat then 0 else s.cad.stuck := by
    rcases due_cases s.cad.stuck s.par.lit.stuckPeriod with ⟨h, hd⟩ | ⟨h, hd⟩
    · rw [hd, if_pos h]
    · rw [hd, if_neg (not_le.2 h)]
  rw [← hconsumed]
  rfl

theorem measureFans_stuck_length (s : State) : (measureFans s).stuck.length = s.par.fanAmount := by
  simp [measureFans]

theorem measureFans_stuck_getD {s : State} {f : Nat} (hf : f < s.par.fanAmount) :
    (measureFans s).stuck.getD f 0 =
      nextStuck s.par.maxStuck ((measuredLines s).1.getLsbD f) s.countEligible (s.stuck.getD f 0) := by
  have hdue : (due s.cad.stuck s.par.lit.stuckPeriod).1 = s.countEligible := by
    rw [State.countEligible, due]
    split <;> simp [*]
  rw [← hdue, List.getD_eq_getElem?_getD, measureFans, List.getElem?_map, List.getElem?_range hf]
  rfl

/-- Settles O35: the window by `measuredLines_spec`, then each fan's counter by the cases of `nextStuck`. -/
theorem measurementCycle : Obligations.MeasurementCycle := by
  intro s hp
  obtain ⟨-, -, -, h255⟩ := instanceOk_fans hp
  obtain ⟨m, hpos, hle, hport, hdraws, hseen, hearlier, hall⟩ := measuredLines_spec (instanceOk_tachSamples hp)
  refine ⟨measureFans s, m, exec_tmMeasure s, measureFans_eq s, measureFans_stuck_length s, hport, hdraws, hpos, hle,
    hearlier, hall, fun f hf => ?_⟩
  rw [measureFans_stuck_getD hf]
  have hstill (h : ¬Toggled s.tach f m) : (measuredLines s).1.getLsbD f = false :=
    Bool.eq_false_iff.2 (mt (hseen f).1 h)
  refine ⟨fun htoggled => ?_, fun hconst hdue => ?_, fun hconst hnot => ?_⟩
  · rw [(hseen f).2 htoggled, nextStuck_changed]
  · rw [hstill hconst, (countEligible_iff s).2 hdue, nextStuck_eligible_toNat h255]
  · rw [hstill hconst, Bool.eq_false_iff.2 (mt (countEligible_iff s).1 (not_le.2 hnot)), nextStuck_not_eligible]

/-! ### The report -/

section Report

variable {s : State}

theorem fanStuck_iff (s : State) (f : Nat) : s.fanStuck f = true ↔ (s.stuck.getD f 0).toNat = s.par.maxStuck :=
  decide_eq_true_iff

theorem firstStuck_eq_none_iff :
    firstStuck s = none ↔ ∀ g < s.par.fanAmount, (s.stuck.getD g 0).toNat ≠ s.par.maxStuck := by
  simp only [firstStuck, Option.map_eq_none_iff, List.find?_eq_none, List.mem_range, fanStuck_iff, ne_eq]

/-- A fan's index fits its byte, so the search's result is the report read as a number. -/
theorem firstStuck_eq_some_iff (hfans : s.par.fanAmount ≤ 255) (f : Byte) :
    firstStuck s = some f ↔ (List.range s.par.fanAmount).find? s.fanStuck = some f.toNat := by
  rw [firstStuck, Option.map_eq_some_iff]
  constructor
  · rintro ⟨k, hk, rfl⟩
    have hlt := List.mem_range.1 (List.mem_of_find?_eq_some hk)
    rwa [BitVec.toNat_ofNat, Nat.mod_eq_of_lt (by omega)]
  · exact fun hk => ⟨f.toNat, hk, BitVec.ofNat_toNat 8 f⟩

/-- R235, R37: the least of the saturated fans. -/
theorem firstStuck_least (hfans : s.par.fanAmount ≤ 255) (f : Byte) :
    firstStuck s = some f ↔ f.toNat < s.par.fanAmount ∧ (s.stuck.getD f.toNat 0).toNat = s.par.maxStuck ∧
      ∀ g < f.toNat, (s.stuck.getD g 0).toNat ≠ s.par.maxStuck := by
  rw [firstStuck_eq_some_iff hfans, List.find?_range_eq_some]
  simp only [← fanStuck_iff, List.mem_range, Bool.not_eq_true', ne_eq, Bool.not_eq_true]
  exact and_left_comm

/-- Whenever a fan is saturated, one no higher than it is reported. -/
theorem firstStuck_of_saturated (hfans : s.par.fanAmount ≤ 255) {f : Nat} (hf : f < s.par.fanAmount)
    (hsat : (s.stuck.getD f 0).toNat = s.par.maxStuck) : ∃ g, firstStuck s = some g ∧ g.toNat ≤ f := by
  cases hr : firstStuck s with
  | none => exact absurd hsat (firstStuck_eq_none_iff.1 hr f hf)
  | some g =>
    obtain ⟨-, -, hleast⟩ := (firstStuck_least hfans g).1 hr
    exact ⟨g, rfl, not_lt.1 fun hlt => hleast f hlt hsat⟩

end Report

/-- Settles O36: `firstStuck_least` and `firstStuck_eq_none_iff`. -/
theorem reportTheLeastStuckFan : Obligations.ReportTheLeastStuckFan := by
  intro s hp
  obtain ⟨-, hfans, -⟩ := instanceOk_fans hp
  exact ⟨firstStuck s, exec_tmReport s, firstStuck_least hfans, firstStuck_eq_none_iff⟩

/-! ### A line that never toggles -/

section ConstantLine

variable {s : State} {f : Nat}

/-- Every sample still to come reads the same on line `f`. -/
def LineConstant (p : Port TachVec) (f : Nat) : Prop :=
  ∀ i, (portSample p i).getLsbD f = (portSample p 0).getLsbD f

theorem LineConstant.not_toggled {p : Port TachVec} (h : LineConstant p f) (n : Nat) : ¬Toggled p f n :=
  fun ⟨i, _, _, hne⟩ => hne (h i)

/-- Sampling further along the port keeps a constant line constant. -/
theorem LineConstant.shift {p q : Port TachVec} {k : Nat} (h : LineConstant p f)
    (hq : ∀ i, portSample q i = portSample p (i + k)) : LineConstant q f :=
  fun i => by rw [hq, hq, h, ← h (0 + k)]

/-- Each sample is one of the draws or the level (R110). -/
theorem lineConstant_of_draws {p : Port TachVec} (h : ∀ v ∈ p.draws, v.getLsbD f = p.level.getLsbD f) :
    LineConstant p f := by
  have hlevel (i : Nat) : (portSample p i).getLsbD f = p.level.getLsbD f := by
    rw [portSample]
    cases hi : p.draws[i]? with
    | some v => exact h v (List.mem_of_getElem? hi)
    | none =>
      cases hl : p.draws.getLast? with
      | some v => exact h v (List.mem_of_getLast? hl)
      | none => rfl
  exact fun i => (hlevel i).trans (hlevel 0).symm

/-- A count-eligible measurement of a constant line: the counter rises, and the line stays constant (R228, R232). -/
theorem measureFans_of_lineConstant (hp : instanceOk s.par = true) (hf : f < s.par.fanAmount)
    (hdue : s.countEligible = true) (hline : LineConstant s.tach f) :
    LineConstant (measureFans s).tach f ∧
      ((measureFans s).stuck.getD f 0).toNat = min ((s.stuck.getD f 0).toNat + 1) s.par.maxStuck := by
  obtain ⟨-, -, -, h255⟩ := instanceOk_fans hp
  obtain ⟨m, -, -, hport, -, hseen, -⟩ := measuredLines_spec (instanceOk_tachSamples hp)
  have hstill : (measuredLines s).1.getLsbD f = false := Bool.eq_false_iff.2 (mt (hseen f).1 (hline.not_toggled m))
  refine ⟨hline.shift hport, ?_⟩
  rw [measureFans_stuck_getD hf, hstill, hdue, nextStuck_eligible_toNat h255]

/-- STUCK_PERIOD timer ticks make a measurement count eligible, whatever the cadence counter held before (R230). -/
theorem execList_stuckPeriod_counts (hp : instanceOk s.par = true) (hf : f < s.par.fanAmount)
    (hperiod : s.par.lit.stuckPeriod ≤ 65535) (hline : LineConstant s.tach f) :
    ∃ cad tach stuck, execList (List.replicate s.par.lit.stuckPeriod .timerTick ++ [.tmMeasure]) s =
        .next { s with cad := cad, tach := tach, stuck := stuck } ∧
      LineConstant tach f ∧ (stuck.getD f 0).toNat = min ((s.stuck.getD f 0).toNat + 1) s.par.maxStuck := by
  have hdue : s.par.lit.stuckPeriod ≤ (countUpBy s.par.lit.stuckPeriod s.cad.stuck).toNat := by
    rw [countUpBy_toNat]
    omega
  rw [execList_append (execList_timerTicks _ s), execList, exec_tmMeasure]
  exact ⟨_, _, _, congrArg Host.Outcome.next (measureFans_eq _),
    measureFans_of_lineConstant hp hf ((countEligible_iff _).2 hdue) hline⟩

/-- R236 with the frame, by induction on the count-eligible cycles. -/
theorem execList_constantLine (n : Nat) (s : State) (hp : instanceOk s.par = true) (hf : f < s.par.fanAmount)
    (hperiod : s.par.lit.stuckPeriod ≤ 65535) (hline : LineConstant s.tach f)
    (hle : (s.stuck.getD f 0).toNat ≤ s.par.maxStuck) :
    ∃ cad tach stuck,
      execList (List.replicate n (List.replicate s.par.lit.stuckPeriod .timerTick ++ [.tmMeasure])).flatten s =
        .next { s with cad := cad, tach := tach, stuck := stuck } ∧
      (stuck.getD f 0).toNat = min ((s.stuck.getD f 0).toNat + n) s.par.maxStuck := by
  induction n generalizing s with
  | zero => exact ⟨_, _, _, rfl, by omega⟩
  | succ n ih =>
    obtain ⟨cad, tach, stuck, hround, hconst, hcount⟩ := execList_stuckPeriod_counts hp hf hperiod hline
    obtain ⟨cad', tach', stuck', hrest, hcounts⟩ :=
      ih { s with cad := cad, tach := tach, stuck := stuck } hp hf hperiod hconst (hcount.trans_le (min_le_right _ _))
    refine ⟨cad', tach', stuck', ?_, ?_⟩
    · rw [List.replicate_succ, List.flatten_cons, execList_append hround]
      exact hrest
    · simp only [hcount] at hcounts
      omega

end ConstantLine

/-- Settles O37: `execList_constantLine` from 0, then `firstStuck_of_saturated`. -/
theorem constantLineIsReportedStuck : Obligations.ConstantLineIsReportedStuck := by
  intro s f n hp hf hzero hperiod hdraws
  have hstart : (s.stuck.getD f 0).toNat = 0 := by rw [hzero]; rfl
  obtain ⟨cad, tach, stuck, hrun, hcount⟩ :=
    execList_constantLine n s hp hf hperiod (lineConstant_of_draws hdraws) (by omega)
  rw [hstart, Nat.zero_add] at hcount
  refine ⟨_, hrun, hcount, fun hn => ?_⟩
  obtain ⟨-, hfans, -⟩ := instanceOk_fans hp
  obtain ⟨g, hg, hgf⟩ := firstStuck_of_saturated (s := { s with cad := cad, tach := tach, stuck := stuck }) hfans hf
    (hcount.trans (min_eq_right hn))
  exact ⟨_, g, exec_tmReport _, hg, hgf⟩

end Sys2Proof.Proofs
end

section
/-! PROOFS. The FaultAggregator (spec/46_fault_aggregator.md): the priority of the fault code (R245), and no operation
reads it (R248). `IgnoresFault` is the claim for a function of the state and is closed under composition, so it passes
from the phases of the control tick to the whole tick; `ReadsNoFault` is the claim for an operation, which may also be
refused, and is closed under branching on anything but the fault code. -/

namespace Sys2Proof.Proofs

open Machine

theorem exec_faEval (s : State) : exec .faEval s = .next (evalFault s) := rfl

/-- Settles O38: `evalFault` is `faultOf` of the two flags (R245). -/
theorem faultPriority : Obligations.FaultPriority := fun s => exec_faEval s

/-! ### Another fault code -/

/-- `s` with another fault code. -/
def withFault (f : FaultCode) (s : State) : State := { s with fault := f }

@[simp] theorem withFault_par (f : FaultCode) (s : State) : (withFault f s).par = s.par := rfl
@[simp] theorem withFault_link (f : FaultCode) (s : State) : (withFault f s).link = s.link := rfl
@[simp] theorem withFault_phase (f : FaultCode) (s : State) : (withFault f s).phase = s.phase := rfl
@[simp] theorem withFault_async (f : FaultCode) (s : State) : (withFault f s).async = s.async := rfl

/-- What `g` leaves does not depend on the fault code it finds, but for the fault code itself. -/
def IgnoresFault (g : State → State) : Prop := ∀ s f, ∃ f', g (withFault f s) = withFault f' (g s)

section IgnoresFault

variable {g h : State → State}

theorem IgnoresFault.of_commute (hg : ∀ s f, g (withFault f s) = withFault f (g s)) : IgnoresFault g :=
  fun s f => ⟨f, hg s f⟩

/-- `g` writes the fault code, and always the same one. -/
theorem IgnoresFault.of_overwrite (hg : ∀ s f, g (withFault f s) = g s) : IgnoresFault g :=
  fun s f => ⟨(g s).fault, hg s f⟩

theorem IgnoresFault.comp (hh : IgnoresFault h) (hg : IgnoresFault g) : IgnoresFault fun s => h (g s) := by
  intro s f
  obtain ⟨f', e⟩ := hg s f
  simp only [e]
  exact hh (g s) f'

theorem IgnoresFault.of_eq (hh : IgnoresFault h) (e : ∀ s, g s = h s) : IgnoresFault g := by
  intro s f
  rw [e, e]
  exact hh s f

end IgnoresFault

/-! ### The symbols inside a decode call -/

theorem searchShown_withFault (n : Nat) (s : State) (f : FaultCode) :
    searchShown n (withFault f s) = withFault f (searchShown n s) := by
  simp only [searchShown, withFault_par, withFault_link]
  split <;> rfl

theorem payloadShown_withFault (n : Nat) (s : State) (f : FaultCode) :
    payloadShown n (withFault f s) = withFault f (payloadShown n s) := by
  simp only [payloadShown, withFault_par, withFault_link]
  split
  · rfl
  · rw [apply_ite (withFault f)]
    rfl

theorem callRuns_withFault (ns : List Nat) (s : State) (f : FaultCode) :
    callRuns ns (withFault f s) = withFault f (callRuns ns s) := by
  induction ns generalizing s with
  | nil => rfl
  | cons n ns ih =>
    cases hd : s.link.dec.dphase with
    | idle | settle => simp only [callRuns, withFault_link, hd]
    | search => simp only [callRuns, withFault_link, hd, searchShown_withFault, ih]
    | payload => simp only [callRuns, withFault_link, hd, payloadShown_withFault, ih]

/-! ### The registers of the control loop -/

theorem updateTemperature_ignoresFault (raw : Option Sample) : IgnoresFault (updateTemperature raw) :=
  .of_commute fun _ _ => by cases raw <;> rfl

theorem spikeTick_ignoresFault : IgnoresFault spikeTick := .of_commute fun s f => by
  simp only [spikeTick, sampleHistory, apply_ite (withFault f)]
  rfl

theorem rampTick_ignoresFault : IgnoresFault rampTick := .of_commute fun s f => by
  simp only [rampTick, apply_ite (withFault f)]
  rfl

theorem evalFault_ignoresFault : IgnoresFault evalFault := .of_overwrite fun _ _ => rfl

theorem resetMain_ignoresFault : IgnoresFault resetMain := .of_overwrite fun _ _ => rfl

theorem writeField_ignoresFault (i : Fin 5) (value : Byte) : IgnoresFault (writeField i value) :=
  .of_commute fun s f => by
    simp only [writeField, apply_ite (withFault f)]
    rfl

/-! ### The control tick -/

theorem arrive_ignoresFault (a : Async) : IgnoresFault fun s => arrive s a := by
  cases a with
  | timerTick | resetSat => exact .of_commute fun _ _ => rfl
  | resetMain => exact resetMain_ignoresFault

theorem foldl_arrive_ignoresFault (l : List Async) : IgnoresFault fun s => l.foldl arrive s := by
  induction l with
  | nil => exact .of_commute fun _ _ => rfl
  | cons a l ih => exact ih.comp (arrive_ignoresFault a)

theorem arrivals_ignoresFault : IgnoresFault arrivals := by
  intro s f
  cases ha : s.async with
  | nil => exact ⟨f, by simp only [arrivals, withFault_async, ha]⟩
  | cons l rest =>
    obtain ⟨f', e⟩ := foldl_arrive_ignoresFault l { s with async := rest } f
    refine ⟨f', ?_⟩
    simp only [arrivals, withFault_async, ha]
    exact e

/-- A boundary looks only at `phase`, before and after what arrives (R251, R318). -/
theorem nextPhase_ignoresFault (done next : Phase) {body : State → State} (hbody : IgnoresFault body) :
    IgnoresFault (nextPhase done next body) := by
  intro s f
  obtain ⟨f', e⟩ := arrivals_ignoresFault s f
  simp only [nextPhase, withFault_phase, e]
  split
  · split
    · exact hbody { arrivals s with phase := next } f'
    · exact ⟨f', rfl⟩
  · exact ⟨f, rfl⟩

theorem phaseBody_ignoresFault (p : Phase) : IgnoresFault (phaseBody p) := by
  cases p with
  | idle | state => exact .of_commute fun _ _ => rfl
  | sense =>
    intro s f
    exact updateTemperature_ignoresFault (decodeCall s.par.lit s.link).1.raw
      { s with link := (decodeCall s.par.lit s.link).1 } f
  | spike => exact spikeTick_ignoresFault
  | ramp => exact IgnoresFault.comp (h := driveOutputs) (.of_commute fun _ _ => rfl) rampTick_ignoresFault
  | tach =>
    refine .of_commute fun s f => ?_
    simp only [phaseBody, phaseTach, apply_ite reportStuck, apply_ite (withFault f)]
    rfl
  | fault => exact .of_overwrite fun _ _ => rfl

theorem phasesFrom_ignoresFault (done : Phase) (ps : List Phase) : IgnoresFault (phasesFrom done ps) := by
  induction ps generalizing done with
  | nil => exact .of_commute fun _ _ => rfl
  | cons p ps ih => exact (ih p).comp (nextPhase_ignoresFault done p (phaseBody_ignoresFault p))

theorem controlTick_ignoresFault : IgnoresFault controlTick := by
  have hstart : IgnoresFault fun s => overlay .sense s.async s.ret s := .of_commute fun _ _ => rfl
  have hphases := ((phasesFrom_ignoresFault .sense [.spike, .state, .ramp, .tach, .fault]).comp
    (phaseBody_ignoresFault .sense)).comp hstart
  exact hphases.of_eq controlTick_eq

/-! ### Every operation -/

/-- Both complete, in states that differ at most in the fault code, or both are refused for the same reason. -/
inductive AlikeButFault : (x y : Host.Outcome State Fault Refusal) → Prop
  | next (t : State) (f : FaultCode) : AlikeButFault (.next t) (.next (withFault f t))
  | refused (r : Refusal) : AlikeButFault (.refused r) (.refused r)

theorem AlikeButFault.of_next {t : State} {y : Host.Outcome State Fault Refusal} (h : AlikeButFault (.next t) y) :
    ∃ f, y = .next (withFault f t) := by
  cases h
  exact ⟨_, rfl⟩

theorem AlikeButFault.of_refused {r : Refusal} {y : Host.Outcome State Fault Refusal}
    (h : AlikeButFault (.refused r) y) : y = .refused r := by
  cases h
  rfl

/-- The outcome of an operation does not depend on the fault code it finds, but for the fault code it leaves. -/
def ReadsNoFault (op : State → Host.Outcome State Fault Refusal) : Prop :=
  ∀ s f, AlikeButFault (op s) (op (withFault f s))

section ReadsNoFault

variable {op op' : State → Host.Outcome State Fault Refusal}

theorem ReadsNoFault.next {g : State → State} (hg : IgnoresFault g) : ReadsNoFault fun s => .next (g s) := by
  intro s f
  obtain ⟨f', e⟩ := hg s f
  simpa only [e] using .next (g s) f'

theorem ReadsNoFault.refused (r : Refusal) : ReadsNoFault fun _ => .refused r := fun _ _ => .refused r

/-- A condition on anything but the fault code. -/
theorem ReadsNoFault.ite {p : State → Prop} [DecidablePred p] (hp : ∀ s f, p (withFault f s) ↔ p s)
    (h : ReadsNoFault op) (h' : ReadsNoFault op') : ReadsNoFault fun s => if p s then op s else op' s := by
  intro s f
  simp only [hp]
  split
  · exact h s f
  · exact h' s f

end ReadsNoFault

theorem searchShown_readsNoFault (n : Params → Nat) : ReadsNoFault fun s => .next (searchShown (n s.par) s) :=
  .next (.of_commute fun s f => searchShown_withFault (n s.par) s f)

theorem payloadShown_readsNoFault (n : Params → Nat) : ReadsNoFault fun s => .next (payloadShown (n s.par) s) :=
  .next (.of_commute fun s f => payloadShown_withFault (n s.par) s f)

theorem callRuns_readsNoFault (ns : Params → List Nat) : ReadsNoFault fun s => .next (callRuns (ns s.par) s) :=
  .next (.of_commute fun s f => callRuns_withFault (ns s.par) s f)

theorem emitRun_readsNoFault (n : Nat) : ReadsNoFault (emitRun n) :=
  .ite (fun _ _ => Iff.rfl) (.next (.of_commute fun _ _ => rfl)) (.refused _)

theorem emitMessage_readsNoFault (v : Sample) : ReadsNoFault (emitMessage v) :=
  .ite (fun _ _ => Iff.rfl) (.next (.of_commute fun _ _ => rfl)) (.refused _)

theorem lineRun_readsNoFault (n : Params → Nat) : ReadsNoFault fun s => lineRun (n s.par) s := by
  intro s f
  cases hd : s.link.dec.dphase <;> simp only [lineRun, withFault_link, withFault_par, hd]
  case idle => exact emitRun_readsNoFault _ s f
  case search => exact searchShown_readsNoFault n s f
  case settle => exact .refused _
  case payload => exact payloadShown_readsNoFault n s f

theorem execRunPayload3_readsNoFault : ReadsNoFault execRunPayload3 :=
  .ite (fun _ _ => Iff.rfl) (payloadShown_readsNoFault fun p => p.lit.syncLen) (.refused _)

theorem execRunLong_readsNoFault : ReadsNoFault execRunLong := by
  intro s f
  cases hd : s.link.dec.dphase <;> simp only [execRunLong, withFault_link, withFault_par, hd]
  case idle | settle => exact .refused _
  case search => exact searchShown_readsNoFault (fun p => p.lit.syncLen + 1) s f
  case payload => exact payloadShown_readsNoFault (fun p => p.lit.syncLen + 1) s f

theorem execRunNonsync21_readsNoFault (two : Bool) : ReadsNoFault (execRunNonsync21 two) :=
  .ite (fun _ _ => Iff.rfl) (searchShown_readsNoFault fun p => if two then p.lit.bit1Len else p.lit.bit0Len)
    (.refused _)

theorem execMsg_readsNoFault (v : Sample) : ReadsNoFault (execMsg v) := by
  intro s f
  cases hd : s.link.dec.dphase <;> simp only [execMsg, withFault_link, withFault_par, hd]
  case idle => exact emitMessage_readsNoFault v s f
  case settle => exact .refused _
  case search | payload => exact callRuns_readsNoFault (fun p => runsOf p.lit v) s f

theorem execReset_readsNoFault (unit : ResetUnit) : ReadsNoFault (execReset unit) := by
  cases unit with
  | main => exact .next resetMain_ignoresFault
  | sat => exact .next (.of_commute fun _ _ => rfl)

/-- R254, R301: `phase` and `loaded` decide whether the tick runs. -/
theorem execCtrlTick_readsNoFault : ReadsNoFault execCtrlTick :=
  .ite (fun _ _ => Iff.rfl) (.refused _)
    (.ite (fun _ _ => Iff.rfl) (.next controlTick_ignoresFault) (.refused _))

theorem execCfgWrite_readsNoFault (index : BitVec 3) (value : Byte) : ReadsNoFault (execCfgWrite index value) := by
  unfold execCfgWrite
  refine .ite (fun _ _ => Iff.rfl) (.refused _) ?_
  cases fieldOf index with
  | none => exact .refused _
  | some i => exact .ite (fun _ _ => Iff.rfl) (.next (writeField_ignoresFault i value)) (.refused _)

theorem execCfgLoad_readsNoFault : ReadsNoFault execCfgLoad :=
  .ite (fun _ _ => Iff.rfl) (.refused _) (.ite (fun _ _ => Iff.rfl) (.refused _)
    (.ite (fun _ _ => Iff.rfl) (.next (.of_commute fun _ _ => rfl)) (.refused _)))

/-- R248, operation by operation. -/
theorem exec_readsNoFault (i : Instr) : ReadsNoFault (exec i) := by
  cases i with
  | s3 => exact lineRun_readsNoFault fun p => p.lit.syncLen
  | b1 => exact lineRun_readsNoFault fun p => p.lit.bit1Len
  | b0 => exact lineRun_readsNoFault fun p => p.lit.bit0Len
  | runPayload3 => exact execRunPayload3_readsNoFault
  | runLong => exact execRunLong_readsNoFault
  | runNonsync21 two => exact execRunNonsync21_readsNoFault two
  | msg v => exact execMsg_readsNoFault v
  | reset unit => exact execReset_readsNoFault unit
  | satStep | linkStep | linkRun | linkSync | linkPayload | linkDecode | tfConvert | sdClear | frState | frOut | tmGate
  | tmMeasure | tmReport | timerTick =>
    exact .next (.of_commute fun _ _ => rfl)
  | tfUpdate raw => exact .next (updateTemperature_ignoresFault raw)
  | sdTick => exact .next spikeTick_ignoresFault
  | frRamp => exact .next rampTick_ignoresFault
  | faEval => exact .next evalFault_ignoresFault
  | ctrlTick => exact execCtrlTick_readsNoFault
  | cfgWrite index value => exact execCfgWrite_readsNoFault index value
  | cfgLoad => exact execCfgLoad_readsNoFault
  | eventReservedA | eventReservedB => exact .refused _

/-- Settles O39: the two kinds of outcome of `exec_readsNoFault`. -/
theorem faultIsReadByNoOperation : Obligations.FaultIsReadByNoOperation := by
  intro i s f
  have halike : AlikeButFault (exec i s) (exec i { s with fault := f }) := exec_readsNoFault i s f
  exact ⟨fun t ht => (ht ▸ halike).of_next, fun r hr => (hr ▸ halike).of_refused⟩

end Sys2Proof.Proofs
end

section
/-! PROOFS. The thermostat side of the block does not see the tachometer side (spec/60_exceptions.md R283,
spec/45_tachometer_monitor.md R225): what an operation leaves, the tachometer's registers and the fault code put aside,
is what it leaves of the state with those put aside. -/

namespace Sys2Proof.Proofs

open Machine

/-! ### The state without the tachometer side -/

/-- `s` with the tachometer inputs, the stuck counters, the stuck-fan report and the fault code put aside. -/
def thermostatSide (s : State) : State :=
  { s with tach := { level := 0, draws := [] }, stuck := [], stuckFan := none, fault := .none }

@[simp] theorem thermostatSide_par (s : State) : (thermostatSide s).par = s.par := rfl
@[simp] theorem thermostatSide_link (s : State) : (thermostatSide s).link = s.link := rfl
@[simp] theorem thermostatSide_async (s : State) : (thermostatSide s).async = s.async := rfl
@[simp] theorem thermostatSide_thermostatSide (s : State) : thermostatSide (thermostatSide s) = thermostatSide s := rfl

/-- Two states with the same thermostat side differ at most in the tachometer side. -/
theorem eq_withTachometer_of_thermostatSide_eq {s t : State} (h : thermostatSide t = thermostatSide s) :
    t = { s with tach := t.tach, stuck := t.stuck, stuckFan := t.stuckFan, fault := t.fault } :=
  calc t = { thermostatSide t with tach := t.tach, stuck := t.stuck, stuckFan := t.stuckFan, fault := t.fault } := rfl
    _ = { s with tach := t.tach, stuck := t.stuck, stuckFan := t.stuckFan, fault := t.fault } := by rw [h]; rfl

/-- The thermostat side of what `g` leaves depends on the thermostat side of what it finds only. -/
def IgnoresTachometer (g : State → State) : Prop :=
  ∀ s, thermostatSide (g s) = thermostatSide (g (thermostatSide s))

section IgnoresTachometer

variable {g h : State → State}

/-- `g` writes nothing of the tachometer side. -/
theorem IgnoresTachometer.of_commute (hg : ∀ s, g (thermostatSide s) = thermostatSide (g s)) : IgnoresTachometer g :=
  fun s => by rw [hg, thermostatSide_thermostatSide]

theorem IgnoresTachometer.eq_of_eq (hg : IgnoresTachometer g) {s u : State}
    (hs : thermostatSide s = thermostatSide u) : thermostatSide (g s) = thermostatSide (g u) := by
  rw [hg s, hs, ← hg u]

theorem IgnoresTachometer.comp (hh : IgnoresTachometer h) (hg : IgnoresTachometer g) :
    IgnoresTachometer fun s => h (g s) :=
  fun s => hh.eq_of_eq (hg s)

/-- A condition on the thermostat side. -/
theorem IgnoresTachometer.ite {p : State → Prop} [DecidablePred p] (hp : ∀ s, p (thermostatSide s) ↔ p s)
    (hg : IgnoresTachometer g) (hh : IgnoresTachometer h) : IgnoresTachometer fun s => if p s then g s else h s := by
  intro s
  simp only [hp]
  split
  · exact hg s
  · exact hh s

end IgnoresTachometer

/-! ### The operations of the control loop -/

theorem updateTemperature_ignoresTachometer (raw : Option Sample) : IgnoresTachometer (updateTemperature raw) :=
  fun s => by cases raw <;> rfl

theorem spikeTick_ignoresTachometer : IgnoresTachometer spikeTick := fun s => by
  simp only [spikeTick, sampleHistory, apply_ite thermostatSide]
  rfl

theorem rampTick_ignoresTachometer : IgnoresTachometer rampTick := fun s => by
  simp only [rampTick, apply_ite thermostatSide]
  rfl

/-- Of the thermostat side the measurement writes only its own cadence counter, and by that counter (R230). -/
theorem thermostatSide_measureFans (s : State) :
    thermostatSide (measureFans s) =
      { thermostatSide s with cad := { s.cad with stuck := (due s.cad.stuck s.par.lit.stuckPeriod).2 } } := rfl

theorem measureFans_ignoresTachometer : IgnoresTachometer measureFans := fun s =>
  (thermostatSide_measureFans s).trans (thermostatSide_measureFans (thermostatSide s)).symm

theorem writeField_ignoresTachometer (i : Fin 5) (value : Byte) : IgnoresTachometer (writeField i value) := fun s => by
  simp only [writeField, apply_ite thermostatSide]
  rfl

/-! ### The control tick -/

theorem arrive_ignoresTachometer (a : Async) : IgnoresTachometer fun s => arrive s a :=
  fun s => by cases a <;> rfl

theorem foldl_arrive_ignoresTachometer (l : List Async) : IgnoresTachometer fun s => l.foldl arrive s := by
  induction l with
  | nil => exact fun _ => rfl
  | cons a l ih => exact ih.comp (arrive_ignoresTachometer a)

theorem arrivals_ignoresTachometer : IgnoresTachometer arrivals := by
  intro s
  cases ha : s.async with
  | nil => simp only [arrivals, thermostatSide_async, ha, thermostatSide_thermostatSide]
  | cons l rest =>
    simp only [arrivals, thermostatSide_async, ha]
    exact foldl_arrive_ignoresTachometer l { s with async := rest }

/-- A boundary looks only at `phase`, before and after what arrives (R251, R318). -/
theorem nextPhase_ignoresTachometer (done next : Phase) {body : State → State} (hbody : IgnoresTachometer body) :
    IgnoresTachometer (nextPhase done next body) := by
  refine .ite (p := fun s => s.phase = done) (fun _ => Iff.rfl) ?_ fun _ => rfl
  refine .comp (h := fun s => if s.phase = done then body { s with phase := next } else s) ?_ arrivals_ignoresTachometer
  exact .ite (fun _ => Iff.rfl) (.comp hbody fun _ => rfl) fun _ => rfl

/-- The gate reads the fan count and its settle counter, so the report and the stuck counters never decide whether a
measurement runs (R226). -/
theorem phaseTach_ignoresTachometer : IgnoresTachometer phaseTach := by
  refine .comp (h := reportStuck) (g := fun s => if s.measurementEligible then measureFans s else s) (fun _ => rfl) ?_
  exact .ite (fun _ => Iff.rfl) measureFans_ignoresTachometer fun _ => rfl

theorem phaseBody_ignoresTachometer (p : Phase) : IgnoresTachometer (phaseBody p) := by
  cases p with
  | idle | state | fault => exact fun _ => rfl
  | sense => exact fun s => updateTemperature_ignoresTachometer _ { s with link := (decodeCall s.par.lit s.link).1 }
  | spike => exact spikeTick_ignoresTachometer
  | ramp => exact .comp (h := driveOutputs) (fun _ => rfl) rampTick_ignoresTachometer
  | tach => exact phaseTach_ignoresTachometer

theorem phasesFrom_ignoresTachometer (done : Phase) (ps : List Phase) : IgnoresTachometer (phasesFrom done ps) := by
  induction ps generalizing done with
  | nil => exact fun _ => rfl
  | cons p ps ih => exact (ih p).comp (nextPhase_ignoresTachometer done p (phaseBody_ignoresTachometer p))

theorem controlTick_ignoresTachometer : IgnoresTachometer controlTick := by
  have hstart : IgnoresTachometer fun s => overlay .sense s.async s.ret s := fun _ => rfl
  have hphases := ((phasesFrom_ignoresTachometer .sense [.spike, .state, .ramp, .tach, .fault]).comp
    (phaseBody_ignoresTachometer .sense)).comp hstart
  intro s
  rw [controlTick_eq, controlTick_eq]
  exact hphases s

/-! ### The symbols inside a decode call -/

theorem searchShown_thermostatSide (n : Nat) (s : State) :
    searchShown n (thermostatSide s) = thermostatSide (searchShown n s) := by
  simp only [searchShown, thermostatSide_par, thermostatSide_link]
  split <;> rfl

theorem payloadShown_thermostatSide (n : Nat) (s : State) :
    payloadShown n (thermostatSide s) = thermostatSide (payloadShown n s) := by
  simp only [payloadShown, thermostatSide_par, thermostatSide_link]
  split
  · rfl
  · rw [apply_ite thermostatSide]
    rfl

theorem callRuns_thermostatSide (ns : List Nat) (s : State) :
    callRuns ns (thermostatSide s) = thermostatSide (callRuns ns s) := by
  induction ns generalizing s with
  | nil => rfl
  | cons n ns ih =>
    cases hd : s.link.dec.dphase with
    | idle | settle => simp only [callRuns, thermostatSide_link, hd]
    | search => simp only [callRuns, thermostatSide_link, hd, searchShown_thermostatSide, ih]
    | payload => simp only [callRuns, thermostatSide_link, hd, payloadShown_thermostatSide, ih]

theorem searchShown_ignoresTachometer (n : Params → Nat) : IgnoresTachometer fun s => searchShown (n s.par) s :=
  .of_commute fun s => searchShown_thermostatSide (n s.par) s

theorem payloadShown_ignoresTachometer (n : Params → Nat) : IgnoresTachometer fun s => payloadShown (n s.par) s :=
  .of_commute fun s => payloadShown_thermostatSide (n s.par) s

theorem callRuns_ignoresTachometer (ns : Params → List Nat) : IgnoresTachometer fun s => callRuns (ns s.par) s :=
  .of_commute fun s => callRuns_thermostatSide (ns s.par) s

/-! ### Every operation -/

/-- The outcome with the tachometer side of its state put aside. -/
def outcomeSide : Host.Outcome State Fault Refusal → Host.Outcome State Fault Refusal
  | .next t => .next (thermostatSide t)
  | .fault f => .fault f
  | .refused r => .refused r

/-- What comes of an operation, its tachometer side put aside, depends on the thermostat side it finds only. -/
def OutcomeIgnoresTachometer (op : State → Host.Outcome State Fault Refusal) : Prop :=
  ∀ s, outcomeSide (op s) = outcomeSide (op (thermostatSide s))

theorem outcomeSide_eq_next {x : Host.Outcome State Fault Refusal} {t : State} (h : outcomeSide x = .next t) :
    ∃ u, x = .next u ∧ thermostatSide u = t := by
  cases x with
  | next u => exact ⟨u, rfl, Host.Outcome.next.inj h⟩
  | fault => cases h
  | refused => cases h

section OutcomeIgnoresTachometer

variable {op op' : State → Host.Outcome State Fault Refusal}

theorem OutcomeIgnoresTachometer.next {g : State → State} (hg : IgnoresTachometer g) :
    OutcomeIgnoresTachometer fun s => .next (g s) :=
  fun s => congrArg Host.Outcome.next (hg s)

theorem OutcomeIgnoresTachometer.refused (r : Refusal) : OutcomeIgnoresTachometer fun _ => .refused r := fun _ => rfl

theorem OutcomeIgnoresTachometer.ite {p : State → Prop} [DecidablePred p] (hp : ∀ s, p (thermostatSide s) ↔ p s)
    (h : OutcomeIgnoresTachometer op) (h' : OutcomeIgnoresTachometer op') :
    OutcomeIgnoresTachometer fun s => if p s then op s else op' s := by
  intro s
  simp only [hp]
  split
  · exact h s
  · exact h' s

/-- An operation that is chosen by where the decode call stands (R23). -/
theorem OutcomeIgnoresTachometer.of_dphase (h : ∀ d, ∃ op', OutcomeIgnoresTachometer op' ∧
    ∀ s, s.link.dec.dphase = d → op s = op' s) : OutcomeIgnoresTachometer op := by
  intro s
  obtain ⟨op', hop', he⟩ := h s.link.dec.dphase
  rw [he s rfl, he (thermostatSide s) rfl]
  exact hop' s

end OutcomeIgnoresTachometer

theorem lineRun_ignoresTachometer (n : Params → Nat) : OutcomeIgnoresTachometer fun s => lineRun (n s.par) s := by
  refine .of_dphase fun d => ?_
  cases d with
  | idle =>
    exact ⟨fun s => emitRun (n s.par) s, .ite (fun _ => Iff.rfl) (.next fun _ => rfl) (.refused _),
      fun s hd => by simp only [lineRun, hd]⟩
  | search => exact ⟨_, .next (searchShown_ignoresTachometer n), fun s hd => by simp only [lineRun, hd]⟩
  | settle => exact ⟨_, .refused .symbolCannotStandHere, fun s hd => by simp only [lineRun, hd]⟩
  | payload => exact ⟨_, .next (payloadShown_ignoresTachometer n), fun s hd => by simp only [lineRun, hd]⟩

theorem execRunLong_ignoresTachometer : OutcomeIgnoresTachometer execRunLong := by
  refine .of_dphase fun d => ?_
  cases d with
  | idle | settle => exact ⟨_, .refused .symbolCannotStandHere, fun s hd => by simp only [execRunLong, hd]⟩
  | search =>
    exact ⟨_, .next (searchShown_ignoresTachometer fun p => p.lit.syncLen + 1),
      fun s hd => by simp only [execRunLong, hd]⟩
  | payload =>
    exact ⟨_, .next (payloadShown_ignoresTachometer fun p => p.lit.syncLen + 1),
      fun s hd => by simp only [execRunLong, hd]⟩

theorem execMsg_ignoresTachometer (v : Sample) : OutcomeIgnoresTachometer (execMsg v) := by
  refine .of_dphase fun d => ?_
  cases d with
  | idle =>
    exact ⟨emitMessage v, .ite (fun _ => Iff.rfl) (.next fun _ => rfl) (.refused _),
      fun s hd => by simp only [execMsg, hd]⟩
  | settle => exact ⟨_, .refused .symbolCannotStandHere, fun s hd => by simp only [execMsg, hd]⟩
  | search | payload =>
    exact ⟨_, .next (callRuns_ignoresTachometer fun p => runsOf p.lit v), fun s hd => by simp only [execMsg, hd]⟩

theorem execCfgWrite_ignoresTachometer (index : BitVec 3) (value : Byte) :
    OutcomeIgnoresTachometer (execCfgWrite index value) := by
  unfold execCfgWrite
  refine .ite (fun _ => Iff.rfl) (.refused _) ?_
  cases fieldOf index with
  | none => exact .refused _
  | some i => exact .ite (fun _ => Iff.rfl) (.next (writeField_ignoresTachometer i value)) (.refused _)

/-- R283, operation by operation. -/
theorem exec_ignoresTachometer (i : Instr) : OutcomeIgnoresTachometer (exec i) := by
  cases i with
  | s3 => exact lineRun_ignoresTachometer fun p => p.lit.syncLen
  | b1 => exact lineRun_ignoresTachometer fun p => p.lit.bit1Len
  | b0 => exact lineRun_ignoresTachometer fun p => p.lit.bit0Len
  | runPayload3 =>
    exact .ite (fun _ => Iff.rfl) (.next (payloadShown_ignoresTachometer fun p => p.lit.syncLen)) (.refused _)
  | runLong => exact execRunLong_ignoresTachometer
  | runNonsync21 two =>
    exact .ite (fun _ => Iff.rfl)
      (.next (searchShown_ignoresTachometer fun p => if two then p.lit.bit1Len else p.lit.bit0Len)) (.refused _)
  | msg v => exact execMsg_ignoresTachometer v
  | reset unit => cases unit <;> exact fun _ => rfl
  | satStep | linkStep | linkRun | linkSync | linkPayload | linkDecode | tfConvert | sdClear | frState | frOut | tmGate
  | tmReport | faEval | timerTick => exact .next fun _ => rfl
  | tmMeasure => exact .next measureFans_ignoresTachometer
  | tfUpdate raw => exact .next (updateTemperature_ignoresTachometer raw)
  | sdTick => exact .next spikeTick_ignoresTachometer
  | frRamp => exact .next rampTick_ignoresTachometer
  | ctrlTick =>
    exact .ite (fun _ => Iff.rfl) (.refused _)
      (.ite (fun _ => Iff.rfl) (.next controlTick_ignoresTachometer) (.refused _))
  | cfgWrite index value => exact execCfgWrite_ignoresTachometer index value
  | cfgLoad =>
    exact .ite (fun _ => Iff.rfl) (.refused _) (.ite (fun _ => Iff.rfl) (.refused _)
      (.ite (fun _ => Iff.rfl) (.next fun _ => rfl) (.refused _)))
  | eventReservedA | eventReservedB => exact .refused _

/-- Settles O40: the two states have the same thermostat side, so what the operation leaves of them has too. -/
theorem stuckFansNeverReachTheThermostat : Obligations.StuckFansNeverReachTheThermostat := by
  intro i s t tach stuck stuckFan fault he
  have hside : outcomeSide (exec i { s with tach := tach, stuck := stuck, stuckFan := stuckFan, fault := fault }) =
      .next (thermostatSide t) :=
    (exec_ignoresTachometer i _).trans ((exec_ignoresTachometer i s).symm.trans (congrArg outcomeSide he))
  obtain ⟨u, hu, hut⟩ := outcomeSide_eq_next hside
  exact ⟨u.tach, u.stuck, u.stuckFan, u.fault, hu.trans (congrArg _ (eq_withTachometer_of_thermostatSide_eq hut))⟩

end Sys2Proof.Proofs
end

section
/-! PROOFS. The configuration operations (spec/47_sequencer_timer_config.md): CFG.LOAD (R265), CFG.WRITE (R261 to R264),
and a load after a write. -/

namespace Sys2Proof.Proofs

open Machine

/-! ### The edit ranges -/

section Ranges

variable {p : Params}

/-- Each default lies in its edit range, and no edit range holds the erased byte (R7, R101). -/
theorem instanceOk_ranges (h : instanceOk p = true) (i : Fin 5) :
    (getField p.lo i).toNat ≤ (getField p.dflt i).toNat ∧ (getField p.dflt i).toNat ≤ (getField p.hi i).toNat ∧
      (getField p.hi i).toNat ≤ 254 := by
  simp only [instanceOk, rangeOk, Bool.and_eq_true, decide_eq_true_eq] at h
  fin_cases i <;> simp only [getField] <;> tauto

/-- The default configuration is legal (R7). -/
theorem instanceOk_legal_dflt (h : instanceOk p = true) : Legal p p.dflt := by
  refine ⟨?_, (inRanges_iff _ _).2 fun i => ?_⟩
  · simp only [instanceOk, Bool.and_eq_true, decide_eq_true_eq] at h
    tauto
  · obtain ⟨hlo, hhi, -⟩ := instanceOk_ranges h i
    exact ⟨hlo, hhi⟩

theorem ne_cfgErased_of_toNat_le {b : Byte} (h : b.toNat ≤ 254) : b ≠ Const.cfgErased := by
  rintro rfl
  exact absurd h (by decide)

/-- A value within the bounds is in the edit range: the erased byte is outside every range (R264). -/
theorem inEditRange_iff (h : instanceOk p = true) (i : Fin 5) (value : Byte) :
    inEditRange p i value = true ↔
      (getField p.lo i).toNat ≤ value.toNat ∧ value.toNat ≤ (getField p.hi i).toNat := by
  refine ⟨inEditRange_bounds, fun hb => ?_⟩
  have hne := ne_cfgErased_of_toNat_le (hb.2.trans (instanceOk_ranges h i).2.2)
  simp only [inEditRange, Bool.and_eq_true, decide_eq_true_eq]
  exact ⟨hb, hne⟩

end Ranges

/-! ### The load -/

section Load

variable {s t : State}

theorem thresholds_ext {c d : Thresholds} (h : ∀ j, getField c j = getField d j) : c = d := by
  obtain ⟨off, on, width, height, reset⟩ := c
  obtain ⟨off', on', width', height', reset'⟩ := d
  obtain rfl : off = off' := h 0
  obtain rfl : on = on' := h 1
  obtain rfl : width = width' := h 2
  obtain rfl : height = height' := h 3
  obtain rfl : reset = reset' := h 4
  rfl

theorem getField_loadedConfig (p : Params) (stored : Thresholds) (m : Memory) (j : Fin 5) :
    getField (loadedConfig p stored m) j =
      if cfgByteRead stored m j = 0xFF then getField p.dflt j else cfgByteRead stored m j := by
  fin_cases j <;> rfl

/-- R316: erased bytes give the defaults. -/
theorem loadedConfig_of_erased {p : Params} {stored : Thresholds} {m : Memory}
    (h : ∀ j, cfgByteRead stored m j = 0xFF) : loadedConfig p stored m = p.dflt :=
  thresholds_ext fun j => by rw [getField_loadedConfig, if_pos (h j)]

theorem exec_cfgLoad_of_busy (h : s.phase ≠ .idle) : exec .cfgLoad s = .refused .onlyBetweenTicks := by
  simp only [exec, execCfgLoad, if_pos h]

/-- The three outcomes between two control ticks, in the rule's order (R265). -/
theorem exec_cfgLoad_of_idle (h : s.phase = .idle) :
    exec .cfgLoad s =
      if (loadedConfig s.par s.stored s.bytes).on.toNat ≤ (loadedConfig s.par s.stored s.bytes).off.toNat then
        .refused .loadedThresholdsCross
      else if inRanges s.par (loadedConfig s.par s.stored s.bytes) then
        .next { s with cfg := loadedConfig s.par s.stored s.bytes, loaded := true }
      else .refused .loadedOutsideRange := by
  simp only [exec, execCfgLoad, h, ne_eq, not_true, if_false]

/-- A load completes exactly between two control ticks and with a legal configuration (R265, R79). -/
theorem exec_cfgLoad_eq_next_iff :
    exec .cfgLoad s = .next t ↔ s.phase = .idle ∧ Legal s.par (loadedConfig s.par s.stored s.bytes) ∧
      t = { s with cfg := loadedConfig s.par s.stored s.bytes, loaded := true } := by
  by_cases hidle : s.phase = .idle
  · rw [exec_cfgLoad_of_idle hidle]
    split_ifs with hcross hr
    · simp [Legal, hcross]
    · simp [Legal, hidle, hr, not_le.1 hcross, eq_comm]
    · simp [Legal, hr]
  · simp [exec_cfgLoad_of_busy hidle, hidle]

end Load

/-- Settles O51: `c` is the configuration the load reads, so the outcome is one of `exec_cfgLoad_of_idle`. -/
theorem configLoadAppliesDefaults : Obligations.ConfigLoadAppliesDefaults := by
  intro s c hidle hc
  obtain rfl : c = loadedConfig s.par s.stored s.bytes :=
    thresholds_ext fun j => (hc j).trans (getField_loadedConfig _ _ _ j).symm
  refine ⟨fun hcross => ?_, fun hlt ⟨j, hj⟩ => ?_, fun hlt hr => ?_⟩
  · rw [exec_cfgLoad_of_idle hidle, if_pos hcross]
  · have hr : ¬ inRanges s.par (loadedConfig s.par s.stored s.bytes) = true := fun hr => by
      have := (inRanges_iff _ _).1 hr j
      omega
    rw [exec_cfgLoad_of_idle hidle, if_neg (not_le.2 hlt), if_neg hr]
  · exact ⟨_, exec_cfgLoad_eq_next_iff.2 ⟨hidle, ⟨hlt, (inRanges_iff _ _).2 hr⟩, rfl⟩, rfl⟩

/-! ### The write -/

section Write

variable {s t : State} {index : BitVec 3} {value : Byte} {i : Fin 5}

theorem exec_cfgWrite_of_busy (h : s.phase ≠ .idle) (index : BitVec 3) (value : Byte) :
    exec (.cfgWrite index value) s = .refused .onlyBetweenTicks := by
  simp only [exec, execCfgWrite, if_pos h]

theorem exec_cfgWrite_of_noField (hidle : s.phase = .idle) (h : 4 < index.toNat) (value : Byte) :
    exec (.cfgWrite index value) s = .refused .noSuchField := by
  have hnone : fieldOf index = none := dif_neg (by omega)
  simp [exec, execCfgWrite, hidle, hnone]

theorem exec_cfgWrite_of_field (hidle : s.phase = .idle) (hi : index.toNat = i.val) :
    exec (.cfgWrite index value) s =
      if inEditRange s.par i value then .next (writeField i value s) else .refused .outsideEditRange := by
  simp only [exec, execCfgWrite, hidle, ne_eq, not_true, if_false, (fieldOf_eq_some_iff index i).2 hi]

/-- A write that completes writes some field, with a value in its edit range (R261, R264). -/
theorem writeField_of_exec_cfgWrite (he : exec (.cfgWrite index value) s = .next t) :
    s.phase = .idle ∧ ∃ i, inEditRange s.par i value = true ∧ t = writeField i value s := by
  have hidle : s.phase = .idle := by
    by_contra h
    rw [exec_cfgWrite_of_busy h] at he
    cases he
  refine ⟨hidle, ?_⟩
  by_cases h4 : 4 < index.toNat
  · rw [exec_cfgWrite_of_noField hidle h4] at he
    cases he
  · rw [exec_cfgWrite_of_field hidle (i := ⟨index.toNat, by omega⟩) rfl] at he
    split at he
    next hv => exact ⟨_, hv, (Host.Outcome.next.inj he).symm⟩
    next => cases he

/-- The neighbour that a colliding write moves: one degree away from the value written, without wrapping, and in its own
range (R262, R263). -/
theorem clampedNeighbour (hok : instanceOk s.par = true) (hv : inEditRange s.par i value = true) :
    (i = 0 → (value + 1).toNat = value.toNat + 1 ∧ (value + 1).toNat ≤ s.par.hi.on.toNat) ∧
      (i = 1 → (value - 1).toNat + 1 = value.toNat ∧ s.par.lo.off.toNat ≤ (value - 1).toNat) := by
  obtain ⟨hlo, hhi⟩ := instanceOk_thresholds hok
  have hb := inEditRange_bounds hv
  have hmax := s.par.hi.on.isLt
  constructor <;> rintro rfl <;> simp only [getField] at hb
  · have hn : (value + 1).toNat = value.toNat + 1 := by rw [BitVec.toNat_add]; simp; omega
    omega
  · have hn : (value - 1).toNat = value.toNat - 1 := by rw [BitVec.toNat_sub]; simp; omega
    omega

end Write

/-- Settles O50: above 4 there is no field, and a value outside the bounds, or erased, is not in the edit range. -/
theorem configWriteRefusals : Obligations.ConfigWriteRefusals := by
  intro s hidle
  refine ⟨fun index value h => exec_cfgWrite_of_noField hidle h value, fun index value i hi hout => ?_⟩
  rw [exec_cfgWrite_of_field hidle hi, if_neg]
  simp only [inEditRange, Bool.and_eq_true, decide_eq_true_eq, not_and]
  rintro ⟨hlo, hhi⟩ hne
  rcases hout with h | h | h
  · omega
  · omega
  · exact hne h

/-- Settles O49: the three cases of `writeField_cases`; the moved neighbour by `clampedNeighbour`. -/
theorem configWriteClampsAndPersists : Obligations.ConfigWriteClampsAndPersists := by
  intro s index value i hok hidle hi hlo hhi
  have hv : inEditRange s.par i value = true := (inEditRange_iff hok i value).2 ⟨hlo, hhi⟩
  obtain ⟨hup, hdown⟩ := clampedNeighbour hok hv
  refine ⟨writeField i value s, by rw [exec_cfgWrite_of_field hidle hi, if_pos hv], ?_⟩
  rcases writeField_cases i value s with ⟨rfl, hle, e⟩ | ⟨rfl, hle, e⟩ | ⟨h0, h1, e⟩ <;> rw [e]
  · obtain ⟨hn, hmax⟩ := hup rfl
    refine ⟨rfl, rfl, fun _ _ => ⟨hn, hmax, ?_⟩, nofun, ?_, fun j hj h01 _ => ?_⟩
    · simp [cfgByteRead_write]
    · simp [cfgByteRead_write]
    · have hj1 : j ≠ 1 := fun h => h01 ⟨rfl, h, hle⟩
      refine ⟨?_, by simp [cfgByteRead_write, hj, hj1]⟩
      change getField (setField (setField s.cfg 1 (value + 1)) 0 value) j = _
      rw [getField_setField, if_neg hj, getField_setField, if_neg hj1]
  · obtain ⟨hn, hmin⟩ := hdown rfl
    refine ⟨rfl, rfl, nofun, fun _ _ => ⟨hn, hmin, ?_⟩, ?_, fun j hj _ h10 => ?_⟩
    · simp [cfgByteRead_write]
    · simp [cfgByteRead_write]
    · have hj0 : j ≠ 0 := fun h => h10 ⟨rfl, h, hle⟩
      refine ⟨?_, by simp [cfgByteRead_write, hj, hj0]⟩
      change getField (setField (setField s.cfg 0 (value - 1)) 1 value) j = _
      rw [getField_setField, if_neg hj, getField_setField, if_neg hj0]
  · refine ⟨rfl, ?_, fun h hle => ?_, fun h hle => ?_, ?_, fun j hj _ _ => ⟨?_, ?_⟩⟩
    · rw [getField_setField, if_pos rfl]
    · exact absurd (h0 h) (not_lt.2 hle)
    · exact absurd (h1 h) (not_lt.2 hle)
    · simp [cfgByteRead_write]
    · rw [getField_setField, if_neg hj]
    · rw [cfgByteRead_write, if_neg hj]

/-! ### A load after a write -/

section Reload

variable {s : State} {i : Fin 5} {value : Byte}

/-- One byte written, and not erased, is one register changed in what a load reads (R265). -/
theorem loadedConfig_write (p : Params) (stored : Thresholds) (m : Memory) (i : Fin 5) {b : Byte}
    (hb : b ≠ Const.cfgErased) :
    loadedConfig p stored (cfgByteWrite m i b) = setField (loadedConfig p stored m) i b := by
  refine thresholds_ext fun j => ?_
  simp only [getField_setField, getField_loadedConfig, cfgByteRead_write]
  by_cases hj : j = i
  · simp only [if_pos hj]
    exact if_neg hb
  · simp only [if_neg hj]

/-- A load would give the configuration registers what they hold, and complete (R265). -/
structure AgreesWithBytes (s : State) : Prop where
  loaded : s.loaded = true
  cfg_eq : loadedConfig s.par s.stored s.bytes = s.cfg
  legal : Legal s.par s.cfg

theorem agreesWithBytes_of_exec_cfgLoad {t : State} (he : exec .cfgLoad s = .next t) : AgreesWithBytes t := by
  obtain ⟨-, hlegal, rfl⟩ := exec_cfgLoad_eq_next_iff.1 he
  exact ⟨rfl, rfl, hlegal⟩

theorem exec_cfgLoad_of_agreesWithBytes (hidle : s.phase = .idle) (h : AgreesWithBytes s) :
    exec .cfgLoad s = .next s := by
  refine exec_cfgLoad_eq_next_iff.2 ⟨hidle, h.cfg_eq.symm ▸ h.legal, ?_⟩
  rw [h.cfg_eq, ← h.loaded]

/-- A write gives the registers and the bytes the same values (R263). -/
theorem loadedConfig_writeField (hok : instanceOk s.par = true) (hv : inEditRange s.par i value = true)
    (h : loadedConfig s.par s.stored s.bytes = s.cfg) :
    loadedConfig s.par s.stored (writeField i value s).bytes = (writeField i value s).cfg := by
  obtain ⟨hup, hdown⟩ := clampedNeighbour hok hv
  have hmax : value.toNat ≤ 254 := (inEditRange_bounds hv).2.trans (instanceOk_ranges hok i).2.2
  have hon : s.par.hi.on.toNat ≤ 254 := (instanceOk_ranges hok 1).2.2
  have hb := ne_cfgErased_of_toNat_le hmax
  rcases writeField_cases i value s with ⟨hi, -, e⟩ | ⟨hi, -, e⟩ | ⟨-, -, e⟩ <;> rw [e]
  · obtain ⟨-, hle⟩ := hup hi
    rw [loadedConfig_write _ _ _ _ hb, loadedConfig_write _ _ _ _ (ne_cfgErased_of_toNat_le (hle.trans hon)), h]
    rfl
  · obtain ⟨hn, -⟩ := hdown hi
    rw [loadedConfig_write _ _ _ _ hb, loadedConfig_write _ _ _ _ (ne_cfgErased_of_toNat_le (by omega)), h]
    rfl
  · rw [loadedConfig_write _ _ _ _ hb, h]

theorem writeField_agreesWithBytes (hok : instanceOk s.par = true) (hv : inEditRange s.par i value = true)
    (h : AgreesWithBytes s) : AgreesWithBytes (writeField i value s) := by
  have hcfg := loadedConfig_writeField hok hv h.cfg_eq
  have hlegal := writeField_legal hok hv h.legal
  obtain ⟨cfg, bytes, e⟩ := writeField_update i value s
  rw [e] at hcfg hlegal ⊢
  exact ⟨h.loaded, hcfg, hlegal⟩

end Reload

/-- Settles O52: the first load makes registers and bytes agree, the write keeps that, so the second load reads what the
registers hold. -/
theorem reloadAfterWriteChangesNothing : Obligations.ReloadAfterWriteChangesNothing := by
  intro s t u index value hok hload hwrite
  obtain ⟨hidle, i, hv, rfl⟩ := writeField_of_exec_cfgWrite hwrite
  have hpar : t.par = s.par := (exec_surroundings hload).1.par
  have hphase : (writeField i value t).phase = .idle := by
    obtain ⟨cfg, bytes, e⟩ := writeField_update i value t
    exact e ▸ hidle
  exact exec_cfgLoad_of_agreesWithBytes hphase
    (writeField_agreesWithBytes (hpar ▸ hok) hv (agreesWithBytes_of_exec_cfgLoad hload))

end Sys2Proof.Proofs
end

section
/-! PROOFS. The timer tick (spec/47_sequencer_timer_config.md R255), what starts a control tick (R254, R301), and the
control tick in which no RESET(main) arrives (R250, R251): its phases run alone, each followed by what arrives at the
boundary after it. -/

namespace Sys2Proof.Proofs

open Machine

/-! ### The timer -/

/-- Settles O41: `execList_timerTicks`; the call reads no cadence counter and the timer tick nothing else (R78). -/
theorem timerTicksOnlyCount : Obligations.TimerTicksOnlyCount :=
  ⟨fun s n => execList_timerTicks n s, fun _ => rfl⟩

/-! ### When a control tick runs -/

section Start

variable {s : State}

theorem exec_ctrlTick_of_busy (h : s.phase ≠ .idle) : exec .ctrlTick s = .refused .tickInProgress := by
  simp only [exec, execCtrlTick, if_pos h]

theorem exec_ctrlTick_of_not_loaded (hidle : s.phase = .idle) (h : s.loaded = false) :
    exec .ctrlTick s = .refused .configNotLoaded := by
  simp [exec, execCtrlTick, hidle, h]

theorem exec_ctrlTick (hidle : s.phase = .idle) (h : s.loaded = true) : exec .ctrlTick s = .next (controlTick s) := by
  simp [exec, execCtrlTick, hidle, h]

end Start

/-- Settles O44: each clause by the test of `phase` or of `loaded` it speaks of. -/
theorem onlyBetweenControlTicks : Obligations.OnlyBetweenControlTicks := by
  intro s
  refine ⟨fun hbusy => ⟨exec_ctrlTick_of_busy hbusy, exec_cfgWrite_of_busy hbusy, exec_cfgLoad_of_busy hbusy, ?_⟩,
    fun hidle => ?_, exec_ctrlTick_of_not_loaded, fun t ht => ?_, fun t ht => ?_⟩
  · rw [displayRead, if_neg hbusy]
  · rw [displayRead, if_pos hidle]
  · obtain rfl : resetMain s = t := Host.Outcome.next.inj ht
    exact exec_ctrlTick_of_not_loaded rfl rfl
  · obtain ⟨hidle, -, rfl⟩ := exec_cfgLoad_eq_next_iff.1 ht
    exact ⟨_, exec_ctrlTick hidle rfl⟩

/-! ### What a tick without a RESET(main) leaves alone -/

/-- The registers that no phase writes and nothing but a `RESET(main)` disturbs between two phases. -/
structure SameOutsidePhases (s t : State) : Prop where
  par : t.par = s.par
  cfg : t.cfg = s.cfg
  bytes : t.bytes = s.bytes
  heartbeat : t.heartbeat = s.heartbeat
  async : t.async = s.async

/-- The fans' registers too. -/
structure SameFans (s t : State) : Prop extends SameOutsidePhases s t where
  fanCount : t.fanCount = s.fanCount
  fanEn : t.fanEn = s.fanEn

section Frame

variable {s t u : State}

theorem SameOutsidePhases.refl (s : State) : SameOutsidePhases s s := ⟨rfl, rfl, rfl, rfl, rfl⟩

theorem SameOutsidePhases.trans (h : SameOutsidePhases s t) (h' : SameOutsidePhases t u) : SameOutsidePhases s u :=
  ⟨h'.par.trans h.par, h'.cfg.trans h.cfg, h'.bytes.trans h.bytes, h'.heartbeat.trans h.heartbeat,
    h'.async.trans h.async⟩

theorem SameFans.trans (h : SameFans s t) (h' : SameFans t u) : SameFans s u :=
  ⟨h.toSameOutsidePhases.trans h'.toSameOutsidePhases, h'.fanCount.trans h.fanCount, h'.fanEn.trans h.fanEn⟩

theorem arrive_sameFans {a : Async} (ha : a ≠ .resetMain) (u : State) : SameFans u (arrive u a) := by
  cases a with
  | timerTick | resetSat => exact ⟨⟨rfl, rfl, rfl, rfl, rfl⟩, rfl, rfl⟩
  | resetMain => exact absurd rfl ha

theorem foldl_arrive_sameFans {l : List Async} (hl : .resetMain ∉ l) (u : State) : SameFans u (l.foldl arrive u) := by
  induction l generalizing u with
  | nil => exact ⟨SameOutsidePhases.refl u, rfl, rfl⟩
  | cons a l ih =>
    rw [List.mem_cons, not_or] at hl
    exact (arrive_sameFans (Ne.symm hl.1) u).trans (ih hl.2 _)

theorem execList_async_sameFans {l : List Async} (hl : .resetMain ∉ l) (he : execList (l.map Async.instr) u = .next t) :
    SameFans u t := by
  rw [execList_arrivals] at he
  exact Host.Outcome.next.inj he ▸ foldl_arrive_sameFans hl u

theorem afterCall_sameFans (u : State) : SameFans u (afterCall u) := ⟨⟨rfl, rfl, rfl, rfl, rfl⟩, rfl, rfl⟩

theorem updateTemperature_sameFans (raw : Option Sample) (u : State) : SameFans u (updateTemperature raw u) := by
  cases raw <;> exact ⟨⟨rfl, rfl, rfl, rfl, rfl⟩, rfl, rfl⟩

theorem phaseTach_update (u : State) :
    ∃ cad tach stuck stuckFan,
      phaseTach u = { u with cad := cad, tach := tach, stuck := stuck, stuckFan := stuckFan } := by
  unfold phaseTach
  split <;> exact ⟨_, _, _, _, rfl⟩

theorem phaseRamp_sameOutsidePhases (u : State) : SameOutsidePhases u (phaseRamp u) := by
  obtain ⟨n, cad, e, -⟩ := rampTick_update u
  rw [phaseRamp, e]
  exact ⟨rfl, rfl, rfl, rfl, rfl⟩

/-- Of the phases with a boundary after them only RAMP writes the fans' registers (R205, R208). -/
theorem phaseAlone_sameFans {p : Phase} (hp : p ∈ boundaryPhases) (hramp : p ≠ .ramp)
    (he : phaseAlone p u = .next t) : SameFans u t := by
  cases p with
  | ramp => exact absurd rfl hramp
  | idle | fault => exact absurd hp (by decide)
  | sense =>
    obtain rfl := Host.Outcome.next.inj ((phaseAlone_sense u).symm.trans he)
    exact (afterCall_sameFans u).trans (updateTemperature_sameFans _ _)
  | spike =>
    obtain ⟨cad, cooldown, hist, e, -⟩ := spikeTick_update u
    obtain rfl := Host.Outcome.next.inj ((phaseAlone_spike u).symm.trans he)
    exact e ▸ ⟨⟨rfl, rfl, rfl, rfl, rfl⟩, rfl, rfl⟩
  | state =>
    obtain rfl := Host.Outcome.next.inj ((phaseAlone_state u).symm.trans he)
    exact ⟨⟨rfl, rfl, rfl, rfl, rfl⟩, rfl, rfl⟩
  | tach =>
    obtain ⟨cad, tach, stuck, stuckFan, e⟩ := phaseTach_update u
    obtain rfl := Host.Outcome.next.inj ((phaseAlone_tach u).symm.trans he)
    exact e ▸ ⟨⟨rfl, rfl, rfl, rfl, rfl⟩, rfl, rfl⟩

theorem phaseAlone_sameOutsidePhases {p : Phase} (hp : p ∈ boundaryPhases) (he : phaseAlone p u = .next t) :
    SameOutsidePhases u t := by
  by_cases hramp : p = .ramp
  · subst hramp
    exact Host.Outcome.next.inj ((phaseAlone_ramp u).symm.trans he) ▸ phaseRamp_sameOutsidePhases u
  · exact (phaseAlone_sameFans hp hramp he).toSameOutsidePhases

end Frame

/-! ### Phases in a row -/

section Phases

variable {p q : Phase} {as : List (List Async)} {r : Returned} {u t : State}

/-- Each phase with what arrives at the boundary after it: nothing once the list is used up (R251). -/
def atBoundaries : List Phase → List (List Async) → List (Phase × List Async)
  | [], _ => []
  | p :: ps, as => (p, as.headD []) :: atBoundaries ps as.tail

/-- Phases in a row, taken apart: the first phase, what arrives after it, the rest. -/
theorem phasesAlone_cons {l : List Async} {rest : List (Phase × List Async)}
    (he : phasesAlone ((p, l) :: rest) u = .next t) :
    ∃ v w, phaseAlone p u = .next v ∧ execList (l.map Async.instr) v = .next w ∧ phasesAlone rest w = .next t := by
  unfold phasesAlone at he
  cases hv : phaseAlone p u with
  | next v =>
    rw [hv, andThen, execList_arrivals] at he
    exact ⟨v, _, rfl, execList_arrivals v l, he⟩
  | fault => rw [hv] at he; cases he
  | refused => rw [hv] at he; cases he

theorem resetMain_notMem_headD (has : ∀ l ∈ as, .resetMain ∉ l) : Async.resetMain ∉ as.headD [] := by
  cases as with
  | nil => simp
  | cons l as => exact has l List.mem_cons_self

/-- A boundary without a `RESET(main)`, whether or not anything is listed for it. -/
theorem nextPhase_overlay_noReset (body : State → State) (has : ∀ l ∈ as, .resetMain ∉ l) :
    nextPhase p q body (overlay p as r u) = body (overlay q as.tail r ((as.headD []).foldl arrive u)) := by
  cases as with
  | nil => exact nextPhase_overlay_nil p r u q body
  | cons l as => exact nextPhase_overlay_quiet p as r u q body (has l List.mem_cons_self)

/-- The phases of a tick from phase `p` on, where no `RESET(main)` arrives, and the same phases run alone. -/
theorem phasesFrom_noReset (r : Returned) (ps : List Phase) (p : Phase) (hmem : ∀ q ∈ p :: ps, q ∈ boundaryPhases)
    (as : List (List Async)) (has : ∀ l ∈ as, .resetMain ∉ l) (u : State) :
    ∃ w, phasesAlone (atBoundaries (p :: ps) as) u = .next w ∧
      phasesFrom p (ps ++ [.fault]) (phaseBody p (overlay p as r u)) =
        overlay .idle (as.drop (ps.length + 1)) r { evalFault w with heartbeat := !w.heartbeat } := by
  induction ps generalizing p as u with
  | nil =>
    obtain ⟨w, hw, hbody⟩ := phaseAlone_next p u (hmem p List.mem_cons_self)
    refine ⟨(as.headD []).foldl arrive w, ?_, ?_⟩
    · simp only [atBoundaries, phasesAlone, hw, andThen, execList_arrivals]
    · rw [hbody, List.length_nil, Nat.zero_add, List.drop_one]
      exact nextPhase_overlay_noReset phaseFault has
  | cons q ps ih =>
    obtain ⟨w, hw, hbody⟩ := phaseAlone_next p u (hmem p List.mem_cons_self)
    obtain ⟨v, hv, hrest⟩ := ih q (fun q' h => hmem q' (List.mem_cons_of_mem _ h)) as.tail
      (fun l hl => has l (List.mem_of_mem_tail hl)) ((as.headD []).foldl arrive w)
    refine ⟨v, ?_, ?_⟩
    · simp only [atBoundaries, phasesAlone, hw, andThen, execList_arrivals] at hv ⊢
      exact hv
    · rw [hbody, List.cons_append, phasesFrom, nextPhase_overlay_noReset _ has, hrest, List.drop_tail,
        List.length_cons]

/-- A control tick in which no `RESET(main)` arrives, against its phases run alone; these do not look at `phase` or at
the boundaries to come, so they may find others. -/
theorem controlTick_noReset {s : State} (has : ∀ l ∈ s.async, .resetMain ∉ l) (p : Phase) (as : List (List Async)) :
    ∃ w, phasesAlone (atBoundaries boundaryPhases s.async) (overlay p as s.ret s) = .next w ∧
      controlTick s = overlay .idle (s.async.drop 5) s.ret { evalFault w with heartbeat := !w.heartbeat } := by
  rw [controlTick_eq]
  exact phasesFrom_noReset s.ret [.spike, .state, .ramp, .tach] .sense (fun q hq => hq) s.async has
    (overlay p as s.ret s)

theorem atBoundaries_noReset {ps : List Phase} (hps : ∀ p ∈ ps, p ∈ boundaryPhases) (has : ∀ l ∈ as, .resetMain ∉ l) :
    ∀ x ∈ atBoundaries ps as, x.1 ∈ boundaryPhases ∧ .resetMain ∉ x.2 := by
  induction ps generalizing as with
  | nil => exact nofun
  | cons p ps ih =>
    rw [atBoundaries, List.forall_mem_cons]
    exact ⟨⟨hps p List.mem_cons_self, resetMain_notMem_headD has⟩,
      ih (fun q hq => hps q (List.mem_cons_of_mem _ hq)) fun l hl => has l (List.mem_of_mem_tail hl)⟩

theorem phasesAlone_sameOutsidePhases {xs : List (Phase × List Async)}
    (hxs : ∀ x ∈ xs, x.1 ∈ boundaryPhases ∧ .resetMain ∉ x.2) (he : phasesAlone xs u = .next t) :
    SameOutsidePhases u t := by
  induction xs generalizing u with
  | nil => exact Host.Outcome.next.inj he ▸ SameOutsidePhases.refl u
  | cons x xs ih =>
    obtain ⟨p, l⟩ := x
    obtain ⟨⟨hp, hl⟩, hxs⟩ := List.forall_mem_cons.1 hxs
    obtain ⟨v, w, hv, hw, he⟩ := phasesAlone_cons he
    exact (phaseAlone_sameOutsidePhases hp hv).trans
      ((execList_async_sameFans hl hw).toSameOutsidePhases.trans (ih hxs he))

/-- The end of a tick, written as a change of its last phase's state (R250, R253). -/
theorem overlay_endOfTick (r : Returned) {b : Bool} (hb : u.heartbeat = b) (has : u.async = []) :
    overlay .idle [] r { evalFault u with heartbeat := !u.heartbeat } =
      { evalFault u with heartbeat := !b, phase := .idle, ret := r } := by
  rw [overlay, hb, ← has]
  rfl

end Phases

/-! ### Timer ticks between the phases -/

/-- The operations of phase TACH with the gate's two tests written out (R226). -/
theorem phaseAlone_tach_eq (u : State) :
    phaseAlone .tach u =
      execList (if u.fanCount.toNat = u.par.fanAmount ∧ u.par.tachSettle ≤ u.cad.full.toNat
        then [.tmMeasure, .tmReport] else [.tmReport]) u := by
  rw [phaseAlone, if_congr (measurementEligible_iff u) rfl rfl]

/-- What phase TACH measures before its report: a measurement cycle exactly if the gate is open (R226). -/
theorem phaseAlone_tach_measures (u : State) :
    ∃ v, phaseAlone .tach u = exec .tmReport v ∧
      (u.measurementEligible = true → exec .tmMeasure u = .next v) ∧ (u.measurementEligible = false → v = u) := by
  cases h : u.measurementEligible with
  | true => exact ⟨measureFans u, by rw [phaseAlone, h]; rfl, fun _ => rfl, nofun⟩
  | false => exact ⟨u, by rw [phaseAlone, h]; rfl, nofun, fun _ => rfl⟩

/-- Settles O43: the tick is its phases run alone with the arrivals between them (`controlTick_noReset`), taken apart
phase by phase. -/
theorem timerTicksBetweenPhases : Obligations.TimerTicksBetweenPhases := by
  intro s n1 n2 n3 n4 n5 hidle hloaded hasync
  have hquiet : ∀ l ∈ s.async, Async.resetMain ∉ l := by
    simp [hasync, List.mem_replicate]
  obtain ⟨w, hw, htick⟩ := controlTick_noReset hquiet .sense []
  have hframe := phasesAlone_sameOutsidePhases (atBoundaries_noReset (fun _ => id) hquiet) hw
  have hlists : atBoundaries boundaryPhases s.async =
      boundaryPhases.zip ([n1, n2, n3, n4, n5].map fun n => List.replicate n .timerTick) := by rw [hasync]; rfl
  have hticks (n : Nat) : (List.replicate n Async.timerTick).map Async.instr = List.replicate n .timerTick :=
    List.map_replicate
  rw [hlists] at hw
  obtain ⟨a1, b1, ha1, hb1, hw⟩ := phasesAlone_cons hw
  obtain ⟨a2, b2, ha2, hb2, hw⟩ := phasesAlone_cons hw
  obtain ⟨a3, b3, ha3, hb3, hw⟩ := phasesAlone_cons hw
  obtain ⟨a4, b4, ha4, hb4, hw⟩ := phasesAlone_cons hw
  obtain ⟨a5, b5, ha5, hb5, hw⟩ := phasesAlone_cons hw
  obtain rfl : b5 = w := Host.Outcome.next.inj hw
  rw [hticks] at hb1 hb2 hb3 hb4 hb5
  refine ⟨a1, a2, a3, a4, a5, b1, b2, b3, b4, b5, afterCall (overlay .sense [] s.ret s), evalFault b5, rfl,
    (exec_tfUpdate _ _).trans ((phaseAlone_sense _).symm.trans ha1), hb1, ha2, hb2, ha3, hb3, ha4, hb4,
    (phaseAlone_tach_eq b4).symm.trans ha5, hb5, rfl, ?_⟩
  rw [exec_ctrlTick hidle hloaded, htick, hasync]
  exact congrArg _ (overlay_endOfTick s.ret hframe.heartbeat hframe.async)

/-! ### Nothing arrives -/

section NothingArrives

variable {s u w : State} {p q : Phase}

/-- A phase of the tick by what it does alone, in a state that may differ in what phases do not look at. -/
theorem phaseBody_of_phaseAlone (hq : q ∈ boundaryPhases) (as : List (List Async)) (r r' : Returned)
    (he : phaseAlone q (overlay q as r' u) = .next w) : phaseBody q (overlay q [] r u) = overlay q [] r w := by
  obtain ⟨w', hw', hbody⟩ := phaseAlone_next q (overlay q as r' u) hq
  obtain rfl : w' = w := Host.Outcome.next.inj (hw'.symm.trans he)
  exact hbody q [] r

theorem phasesFrom_overlay_cons (hq : q ∈ boundaryPhases) (as : List (List Async)) (r r' : Returned) (ps : List Phase)
    (he : phaseAlone q (overlay q as r' u) = .next w) :
    phasesFrom p (q :: ps) (overlay p [] r u) = phasesFrom q ps (overlay q [] r w) := by
  rw [phasesFrom, nextPhase_overlay_nil, phaseBody_of_phaseAlone hq as r r' he]

/-- A tick in which nothing arrives, from its phases run alone with `phase` set as the tick sets it (R250). -/
theorem controlTick_of_phasesAlone {s2 s3 s4 s6 s9 : State} {r : Returned} (hasync : s.async = [])
    (h2 : phaseAlone .sense { s with phase := .sense } = .next s2)
    (h3 : phaseAlone .spike { s2 with phase := .spike } = .next s3)
    (h4 : phaseAlone .state { s3 with phase := .state } = .next s4)
    (h6 : phaseAlone .ramp { s4 with phase := .ramp } = .next s6)
    (h9 : phaseAlone .tach { s6 with phase := .tach, ret := r } = .next s9) :
    controlTick s =
      { evalFault { s9 with phase := .fault } with heartbeat := !s.heartbeat, phase := .idle, ret := s.ret } := by
  have f2 : SameOutsidePhases s s2 := { phaseAlone_sameOutsidePhases (by decide) h2 with }
  have f3 : SameOutsidePhases s2 s3 := { phaseAlone_sameOutsidePhases (by decide) h3 with }
  have f4 : SameOutsidePhases s3 s4 := { phaseAlone_sameOutsidePhases (by decide) h4 with }
  have f6 : SameOutsidePhases s4 s6 := { phaseAlone_sameOutsidePhases (by decide) h6 with }
  have f9 : SameOutsidePhases s6 s9 := { phaseAlone_sameOutsidePhases (by decide) h9 with }
  have hframe := f2.trans (f3.trans (f4.trans (f6.trans f9)))
  rw [controlTick_eq, hasync, phaseBody_of_phaseAlone (by decide) s.async s.ret s.ret h2,
    phasesFrom_overlay_cons (by decide) s2.async s.ret s2.ret _ h3,
    phasesFrom_overlay_cons (by decide) s3.async s.ret s3.ret _ h4,
    phasesFrom_overlay_cons (by decide) s4.async s.ret s4.ret _ h6,
    phasesFrom_overlay_cons (by decide) s6.async s.ret r _ h9]
  exact (nextPhase_overlay_nil .tach s.ret s9 .fault phaseFault).trans
    (overlay_endOfTick s.ret hframe.heartbeat (hframe.async.trans hasync))

end NothingArrives

/-- Settles O42: each operation completes, so `controlTick_of_phasesAlone` gives the tick; the value that TM.GATE
returns is the gate's test of phase TACH. -/
theorem controlTickRunsItsPhases : Obligations.ControlTickRunsItsPhases := by
  intro s hidle hloaded hasync
  obtain ⟨s1, h1⟩ : ∃ s1, exec .linkDecode { s with phase := .sense } = .next s1 := ⟨_, exec_linkDecode _⟩
  obtain ⟨s2, h2⟩ : ∃ s2, exec (.tfUpdate s1.link.raw) s1 = .next s2 := ⟨_, exec_tfUpdate _ _⟩
  obtain ⟨s3, h3⟩ : ∃ s3, exec .sdTick { s2 with phase := .spike } = .next s3 := ⟨_, exec_sdTick _⟩
  obtain ⟨s4, h4⟩ : ∃ s4, exec .frState { s3 with phase := .state } = .next s4 := ⟨_, exec_frState _⟩
  obtain ⟨s5, h5⟩ : ∃ s5, exec .frRamp { s4 with phase := .ramp } = .next s5 := ⟨_, exec_frRamp _⟩
  obtain ⟨s6, h6⟩ : ∃ s6, exec .frOut s5 = .next s6 := ⟨_, rfl⟩
  obtain ⟨s7, h7, hs7⟩ : ∃ s7, exec .tmGate { s6 with phase := .tach } = .next s7 ∧
      s7 = { s6 with phase := .tach, ret := .gate s7.measurementEligible } := ⟨_, exec_tmGate _, rfl⟩
  have hret : s7.ret = .gate s7.measurementEligible := congrArg State.ret hs7
  obtain ⟨s8, h8, hon, hoff⟩ := phaseAlone_tach_measures s7
  refine ⟨s1, s2, s3, s4, s5, s6, s7, s8, _, _, h1, h2, h3, h4, h5, h6, h7, ?_, ?_, ?_, exec_tmReport s8,
    exec_faEval _, ?_⟩
  · rw [hret, Returned.gate.injEq]
    exact hon
  · rw [hret, Returned.gate.injEq]
    exact hoff
  · cases hb : s7.measurementEligible <;> simp [hret, hb]
  · have hsense : phaseAlone .sense { s with phase := .sense } = .next s2 := by rw [phaseAlone, h1]; exact h2
    have hramp : phaseAlone .ramp { s4 with phase := .ramp } = .next s6 := by
      simp only [phaseAlone, execList, h5, h6]
    have htach := h8.trans (exec_tmReport s8)
    rw [hs7] at htach
    rw [exec_ctrlTick hidle hloaded, controlTick_of_phasesAlone hasync hsense h3 h4 hramp htach]

end Sys2Proof.Proofs
end

section
/-! PROOFS. Any control tick without a RESET(main) moves at most one fan (spec/70_reset_and_hazards.md R327). -/

namespace Sys2Proof.Proofs

open Machine

/-! ### One fan at most -/

section Inrush

variable {p : Params} {s t : State}

/-- Two numbers that differ by at most one. -/
def Near (m n : Nat) : Prop := m ≤ n + 1 ∧ n ≤ m + 1

theorem Near.symm {m n : Nat} (h : Near m n) : Near n m := And.symm h

/-- Counts that differ by at most one drive the same outputs but for the channel at the lower count's position (R70). -/
theorem driveFans_near (hp : instanceOk p = true) {m n : Nat} (h : Near m n) {c : Nat}
    (hc : (driveFans p m)[c]? ≠ (driveFans p n)[c]?) : c ∈ p.fanOrder ∧ p.fanOrder.idxOf c = min m n := by
  obtain ⟨hmn, hnm⟩ := h
  have hlt : c < p.fanAmount := by
    by_contra hge
    rw [List.getElem?_eq_none (by simpa using hge), List.getElem?_eq_none (by simpa using hge)] at hc
    exact hc rfl
  rw [driveFans_get p m c hlt, driveFans_get p n c hlt, Ne, Option.some_inj, decide_eq_decide] at hc
  exact ⟨(instanceOk_fanOrder_perm hp).mem_iff.1 (List.mem_range.2 hlt), by omega⟩

/-- So at most one output differs: a permutation holds one channel at each position. -/
theorem driveFans_near_unique (hp : instanceOk p = true) {m n : Nat} (h : Near m n) {c d : Nat}
    (hc : (driveFans p m)[c]? ≠ (driveFans p n)[c]?) (hd : (driveFans p m)[d]? ≠ (driveFans p n)[d]?) : c = d := by
  obtain ⟨hmem, hci⟩ := driveFans_near hp h hc
  obtain ⟨-, hdi⟩ := driveFans_near hp h hd
  exact (List.idxOf_inj hmem).1 (hci.trans hdi.symm)

/-- Phase RAMP moves the count by at most one, and the outputs follow it (R205, R208). -/
theorem phaseRamp_near (hp : instanceOk s.par = true) (hcount : s.fanCount.toNat ≤ s.par.fanAmount) :
    Near (phaseRamp s).fanCount.toNat s.fanCount.toNat ∧
      (phaseRamp s).fanEn = driveFans s.par (phaseRamp s).fanCount.toNat := by
  obtain ⟨-, h255, -⟩ := instanceOk_fans hp
  obtain ⟨n, cad, e, rfl | rfl⟩ := rampTick_update s <;> rw [phaseRamp, e]
  · exact ⟨⟨by simp, by simp⟩, rfl⟩
  · obtain ⟨hup, hdown, -⟩ := nextFanCount_near s h255 hcount
    exact ⟨⟨hup, hdown⟩, rfl⟩

/-- A phase other than RAMP and the boundary after it. -/
theorem phaseAlone_arrivals_sameFans {q : Phase} {l : List Async} {u : State} (hq : q ∈ boundaryPhases)
    (hramp : q ≠ .ramp) (hl : .resetMain ∉ l) (ht : phaseAlone q s = .next t)
    (hu : execList (l.map Async.instr) t = .next u) : SameFans s u :=
  (phaseAlone_sameFans hq hramp ht).trans (execList_async_sameFans hl hu)

/-- The fans after the phases of a tick without a `RESET(main)`: only phase RAMP has touched them. -/
theorem phasesAlone_fans {as : List (List Async)} (has : ∀ l ∈ as, .resetMain ∉ l)
    (he : phasesAlone (atBoundaries boundaryPhases as) s = .next t) :
    ∃ u, SameFans s u ∧ SameFans (phaseRamp u) t := by
  have hall := atBoundaries_noReset (ps := boundaryPhases) (fun _ => id) has
  simp only [boundaryPhases, atBoundaries] at he hall
  simp only [List.forall_mem_cons] at hall
  obtain ⟨⟨-, l1⟩, ⟨-, l2⟩, ⟨-, l3⟩, ⟨-, l4⟩, ⟨-, l5⟩, -⟩ := hall
  obtain ⟨a1, b1, ha1, hb1, he⟩ := phasesAlone_cons he
  obtain ⟨a2, b2, ha2, hb2, he⟩ := phasesAlone_cons he
  obtain ⟨a3, b3, ha3, hb3, he⟩ := phasesAlone_cons he
  obtain ⟨a4, b4, ha4, hb4, he⟩ := phasesAlone_cons he
  obtain ⟨a5, b5, ha5, hb5, he⟩ := phasesAlone_cons he
  obtain rfl : b5 = t := Host.Outcome.next.inj he
  obtain rfl : phaseRamp b3 = a4 := Host.Outcome.next.inj ((phaseAlone_ramp b3).symm.trans ha4)
  have hsense := phaseAlone_arrivals_sameFans (by decide) (by decide) l1 ha1 hb1
  have hspike := phaseAlone_arrivals_sameFans (by decide) (by decide) l2 ha2 hb2
  have hstate := phaseAlone_arrivals_sameFans (by decide) (by decide) l3 ha3 hb3
  have htach := phaseAlone_arrivals_sameFans (by decide) (by decide) l5 ha5 hb5
  exact ⟨b3, hsense.trans (hspike.trans hstate), (execList_async_sameFans l4 hb4).trans htach⟩

/-- A control tick without a `RESET(main)`: the count moves by at most one, and the outputs follow it. -/
theorem controlTick_near (hp : instanceOk s.par = true) (hcount : s.fanCount.toNat ≤ s.par.fanAmount)
    (has : ∀ l ∈ s.async, .resetMain ∉ l) :
    Near (controlTick s).fanCount.toNat s.fanCount.toNat ∧
      (controlTick s).fanEn = driveFans s.par (controlTick s).fanCount.toNat := by
  obtain ⟨w, hw, htick⟩ := controlTick_noReset has .sense []
  obtain ⟨u, hbefore, hafter⟩ := phasesAlone_fans has hw
  have hpar : u.par = s.par := hbefore.par
  have hu : u.fanCount = s.fanCount := hbefore.fanCount
  have hcount' : u.fanCount.toNat ≤ u.par.fanAmount := by rw [hu, hpar]; exact hcount
  obtain ⟨hnear, hen⟩ := phaseRamp_near (hpar.symm ▸ hp) hcount'
  have hc : (controlTick s).fanCount = (phaseRamp u).fanCount := htick ▸ hafter.fanCount
  have he : (controlTick s).fanEn = (phaseRamp u).fanEn := htick ▸ hafter.fanEn
  rw [hc, he, ← hu, ← hpar]
  exact ⟨hnear, hen⟩

end Inrush

/-- Settles O33: the outputs follow the count before the tick and after it, and the counts are near. -/
theorem inrushBound : Obligations.InrushBound := by
  intro s t hok hcount hout hquiet he
  obtain ⟨-, -, ht⟩ := execCtrlTick_cases he
  have hbefore : driveFans s.par s.fanCount.toNat = s.fanEn := congrArg State.fanEn (Host.Outcome.next.inj hout)
  obtain ⟨hnear, hafter⟩ := controlTick_near hok hcount hquiet
  rw [← ht] at hnear hafter
  rw [← hbefore, hafter]
  exact ⟨hnear.1, hnear.2, fun c d => driveFans_near_unique hok hnear.symm⟩

end Sys2Proof.Proofs
end

section
/-! PROOFS. Two control ticks in which nothing arrives: one on a dead line (spec/60_exceptions.md R282), and the first
one after both resets and a load of erased bytes (spec/70_reset_and_hazards.md R316). -/

namespace Sys2Proof.Proofs

open Machine

/-! ### A tick in which nothing arrives -/

/-- Phase SENSE (R250). -/
def sensed (s : State) : State := updateTemperature (afterCall s).link.raw (afterCall s)

/-- The phases after SENSE that have a boundary after them (R250). -/
def restOfTick (u : State) : State := phaseTach (phaseRamp (updateRunState (spikeTick u)))

theorem phasesAlone_nothing (s : State) :
    phasesAlone (atBoundaries boundaryPhases []) s = .next (restOfTick (sensed s)) := by
  simp only [boundaryPhases, atBoundaries, List.headD_nil, List.tail_nil, phasesAlone, phaseAlone_sense,
    phaseAlone_spike, phaseAlone_state, phaseAlone_ramp, phaseAlone_tach, andThen, List.map_nil, execList]
  rfl

/-- The whole tick by the functions of its phases. -/
theorem exec_ctrlTick_of_nothing {s : State} (hidle : s.phase = .idle) (hloaded : s.loaded = true)
    (hasync : s.async = []) :
    exec .ctrlTick s = .next
      { evalFault (restOfTick (sensed s)) with heartbeat := !s.heartbeat, phase := .idle, ret := s.ret } := by
  have hquiet : ∀ l ∈ s.async, Async.resetMain ∉ l := by simp [hasync]
  obtain ⟨w, hw, htick⟩ := controlTick_noReset hquiet s.phase s.async
  have hframe := phasesAlone_sameOutsidePhases (atBoundaries_noReset (fun _ => id) hquiet) hw
  have hself : overlay s.phase s.async s.ret s = s := rfl
  rw [hself, hasync, phasesAlone_nothing] at hw
  obtain rfl : restOfTick (sensed s) = w := Host.Outcome.next.inj hw
  rw [exec_ctrlTick hidle hloaded, htick, hasync]
  exact congrArg _ (overlay_endOfTick s.ret hframe.heartbeat (hframe.async.trans hasync))

/-! ### The phases after SENSE under a sensor fault -/

section SensorFault

variable {s : State}

/-- Under a sensor fault a due spike tick takes the cooldown down, if it is armed, and never samples (R191). -/
theorem spikeTick_of_sensorFault (hf : s.sensorFault = true) :
    ∃ spike cooldown, spikeTick s = { s with cad := { s.cad with spike := spike }, cooldown := cooldown } ∧
      cooldown.toNat =
        if s.par.lit.spikePeriod ≤ s.cad.spike.toNat then s.cooldown.toNat - 1 else s.cooldown.toNat := by
  rcases spikeTick_cases s with ⟨hd, e⟩ | ⟨hd, hc, e⟩ | ⟨hd, hc, -, e⟩ | ⟨-, -, hf', -⟩
  · exact ⟨_, _, e, by rw [if_neg (not_le.2 hd)]⟩
  · exact ⟨_, _, e, by rw [if_pos hd]; bv_omega⟩
  · exact ⟨_, _, e, by rw [if_pos hd, hc]; rfl⟩
  · exact absurd (hf.symm.trans hf') nofun

/-- With the target at no fan a due ramp tick takes one fan away, if one is on (R205). -/
theorem phaseRamp_of_off (hoff : s.runState = .off) :
    ∃ cad n, phaseRamp s = { s with cad := cad, fanCount := n, fanEn := driveFans s.par n.toNat } ∧
      n.toNat = if s.par.rampPeriod ≤ s.cad.ramp.toNat then s.fanCount.toNat - 1 else s.fanCount.toNat := by
  by_cases hd : s.par.rampPeriod ≤ s.cad.ramp.toNat
  · refine ⟨_, nextFanCount s, by rw [phaseRamp, rampTick_due hd]; rfl, ?_⟩
    rw [if_pos hd]
    by_cases hpos : 0 < s.fanCount.toNat
    · rw [nextFanCount_down hoff hpos]
      bv_omega
    · rw [nextFanCount_bottom hoff (by omega)]
      omega
  · exact ⟨_, s.fanCount, by rw [phaseRamp, rampTick_not_due (not_le.1 hd)]; rfl, by rw [if_neg hd]⟩

theorem restOfTick_of_sensorFault (hf : s.sensorFault = true) :
    ∃ cad cooldown n tach stuck stuckFan,
      restOfTick s = { s with
        cad := cad, cooldown := cooldown, runState := .off, fanCount := n, fanEn := driveFans s.par n.toNat
        tach := tach, stuck := stuck, stuckFan := stuckFan } ∧
      (cooldown.toNat =
        if s.par.lit.spikePeriod ≤ s.cad.spike.toNat then s.cooldown.toNat - 1 else s.cooldown.toNat) ∧
      n.toNat = if s.par.rampPeriod ≤ s.cad.ramp.toNat then s.fanCount.toNat - 1 else s.fanCount.toNat := by
  obtain ⟨spike, cooldown, hspike, hcooldown⟩ := spikeTick_of_sensorFault hf
  have hstate : nextRunState (spikeTick s) = .off := by rw [nextRunState_eq, if_pos (by rw [hspike]; exact hf)]
  obtain ⟨cad, n, hramp, hn⟩ := phaseRamp_of_off (s := updateRunState (spikeTick s)) hstate
  obtain ⟨cad', tach, stuck, stuckFan, htach⟩ := phaseTach_update (phaseRamp (updateRunState (spikeTick s)))
  refine ⟨cad', cooldown, n, tach, stuck, stuckFan, ?_, hcooldown, ?_⟩
  · rw [restOfTick, htach, hramp, updateRunState, hstate, hspike]
  · rw [hn, updateRunState, hspike]

end SensorFault

/-- R155: phase SENSE on a dead line: the call gives no message, so the sensor has failed. -/
theorem sensed_of_deadLine {s : State} {b : Bool} (hlit : s.par.lit = Literals.given)
    (hshows : s.link.shows s.par.lit (List.replicate 4 b)) (hsound : s.link.clockSound 4) :
    ∃ l r, sensed s = { s with link := l, ret := r, sensorFault := true, temp := 0, hist := [] } ∧
      l.raw = none ∧ l.sat = (linkSteps s.par.lit 4 s.link).sat := by
  obtain ⟨hdead, -⟩ := deadAndAlternatingLines s b hlit
  obtain ⟨t, ht, -, hcall⟩ := hdead hshows hsound
  have hafter : afterCall s = t := Host.Outcome.next.inj ((exec_linkDecode s).symm.trans ht)
  have hraw : t.link.raw = none := by rw [hcall]
  refine ⟨t.link, t.ret, ?_, hraw, by rw [hcall]⟩
  rw [sensed, hafter, hraw, updateTemperature_none, hcall]

/-- Settles O47: phase SENSE leaves a sensor fault (`sensed_of_deadLine`), from which `restOfTick_of_sensorFault` goes
on. -/
theorem sensorFaultTick : Obligations.SensorFaultTick := by
  intro s b hlit _ _ hidle hloaded hasync hshows hsound
  obtain ⟨l, r, hsensed, hraw, hsat⟩ := sensed_of_deadLine hlit hshows hsound
  have hfault : (sensed s).sensorFault = true := by rw [hsensed]
  obtain ⟨cad, cooldown, n, tach, stuck, stuckFan, hrest, hcooldown, hn⟩ := restOfTick_of_sensorFault hfault
  have hperiod : s.par.lit.spikePeriod = 1200 := by rw [hlit]; rfl
  rw [hsensed] at hrest hcooldown hn
  rw [← hperiod]
  refine ⟨_, exec_ctrlTick_of_nothing hidle hloaded hasync, ?_⟩
  rw [hsensed, hrest]
  exact ⟨hraw, rfl, rfl, rfl, rfl, rfl, hn, hcooldown, rfl, rfl, rfl, hsat⟩

/-! ### The phases after SENSE with nothing due and no fan on -/

section NothingDue

variable {s : State}

theorem phaseTach_of_not_eligible (h : s.fanCount.toNat ≠ s.par.fanAmount) : phaseTach s = reportStuck s := by
  have hclosed : ¬ s.measurementEligible = true := fun he => h ((measurementEligible_iff s).1 he).1
  rw [phaseTach, if_neg hclosed]

/-- From OFF, with no fault and no cooldown, the upper threshold alone decides (R204). -/
theorem nextRunState_of_off (hf : s.sensorFault = false) (hc : s.cooldown.toNat = 0)
    (hlt : s.cfg.off.toNat < s.cfg.on.toNat) (hoff : s.runState = .off) :
    nextRunState s = if (s.cfg.on.toNat : Int) ≤ s.temp.toInt then .on else .off := by
  rw [nextRunState_eq, if_neg (by simp [hf]), if_neg hc.not_gt]
  split_ifs with hlow hhigh
  · omega
  · rfl
  · rfl
  · exact hoff

theorem restOfTick_of_nothingDue (hspike : s.cad.spike.toNat < s.par.lit.spikePeriod)
    (hramp : s.cad.ramp.toNat < s.par.rampPeriod) (hfans : s.fanCount.toNat ≠ s.par.fanAmount) :
    restOfTick s = { s with
      runState := nextRunState s, fanEn := driveFans s.par s.fanCount.toNat, stuckFan := firstStuck s } := by
  have hs : spikeTick s = s := by rw [spikeTick_eq, if_pos hspike]
  have hr : rampTick (updateRunState s) = updateRunState s := rampTick_not_due hramp
  have ht : phaseTach (driveOutputs (updateRunState s)) = reportStuck (driveOutputs (updateRunState s)) :=
    phaseTach_of_not_eligible hfans
  rw [restOfTick, hs, phaseRamp, hr, ht]
  rfl

end NothingDue

/-! ### After both resets and a load -/

/-- What both resets and a load of erased bytes leave (R310, R316). -/
def resetAndLoaded (s : State) : State :=
  { resetMain s with link := resetSatellite (resetMain s).link, cfg := s.par.dflt, loaded := true }

theorem instanceOk_rampPeriod {p : Params} (h : instanceOk p = true) : 0 < p.rampPeriod := by
  simp only [instanceOk, Bool.and_eq_true, decide_eq_true_eq] at h
  tauto

section AfterReset

variable {s : State}

theorem execList_resets_cfgLoad {t : State} (hok : instanceOk s.par = true)
    (herased : ∀ j, cfgByteRead s.stored s.bytes j = 0xFF) (ht : exec .ctrlTick (resetAndLoaded s) = .next t) :
    execList [.reset .main, .reset .sat, .cfgLoad, .ctrlTick] s = .next t := by
  have hcfg : loadedConfig s.par s.stored s.bytes = s.par.dflt := loadedConfig_of_erased herased
  have hmain : exec (.reset .main) s = .next (resetMain s) := rfl
  have hsat : exec (.reset .sat) (resetMain s) =
      .next { resetMain s with link := resetSatellite (resetMain s).link } := rfl
  have hload : exec .cfgLoad { resetMain s with link := resetSatellite (resetMain s).link } =
      .next (resetAndLoaded s) := by
    refine exec_cfgLoad_eq_next_iff.2 ⟨rfl, ?_, ?_⟩
    · simp only [resetMain_par, resetMain_stored, resetMain_bytes, hcfg]
      exact instanceOk_legal_dflt hok
    · simp only [resetMain_par, resetMain_stored, resetMain_bytes, hcfg]
      rfl
  simp only [execList, hmain, hsat, hload, ht]

/-- Phase SENSE after both resets: the call decodes the first message, which carries the next ADC draw (R157), and the
unknown temperature takes its conversion at once (R176). -/
theorem sensed_resetAndLoaded (hlit : s.par.lit = Literals.given) (hline : s.link.line = []) :
    ∃ l r, sensed (resetAndLoaded s) = { resetAndLoaded s with
        link := l, ret := r, sensorFault := false, temp := convert s.par (portSample s.link.adc 0) } ∧
      l.raw = some (portSample s.link.adc 0) := by
  have hk : 0 < runLen s.par.lit 0 (resetAndLoaded s).link.sat.sample :=
    (runLen_bounds (hlit ▸ literalsOk_given) _ _).1
  obtain ⟨t, v, ht, hv, hraw, -, -, -, -, -, hcall⟩ :=
    roundTripFromEveryPosition (resetAndLoaded s) 0 hlit hline (Nat.zero_le _) hk
  obtain rfl : v = portSample s.link.adc 0 := by rw [hv]; simp [resetAndLoaded, resetSatellite, resetMain]
  have hafter : afterCall (resetAndLoaded s) = t := Host.Outcome.next.inj ((exec_linkDecode _).symm.trans ht)
  refine ⟨t.link, t.ret, ?_, hraw⟩
  rw [sensed, hafter, hraw, updateTemperature_some, hcall]
  rfl

end AfterReset

/-- Settles O48: both resets and the load lead to `resetAndLoaded`, from where a tick takes the first sample; no cadence
is due, no fan is on, and the cleared counters report no fan. -/
theorem firstControlTickAfterReset : Obligations.FirstControlTickAfterReset := by
  rintro s _ _ hlit hok herased hline hasync rfl rfl
  obtain ⟨hfans, -⟩ := instanceOk_fans hok
  obtain ⟨hlt, -⟩ := instanceOk_legal_dflt hok
  obtain ⟨l, r, hsensed, hraw⟩ := sensed_resetAndLoaded hlit hline
  refine ⟨_, execList_resets_cfgLoad hok herased (exec_ctrlTick_of_nothing rfl rfl hasync), ?_⟩
  rw [hsensed, restOfTick_of_nothingDue, nextRunState_of_off rfl rfl]
  · exact ⟨rfl, hraw, rfl, rfl, rfl, rfl, rfl, driveFans_zero s.par,
      congrArg (faultOf false) (firstStuck_resetMain hok), rfl⟩
  · exact hlt
  · rfl
  · change 0 < s.par.lit.spikePeriod
    rw [hlit]
    decide
  · exact instanceOk_rampPeriod hok
  · exact Nat.ne_of_lt hfans

end Sys2Proof.Proofs
end
